-- ==== Sys2Proof/Word.lean ====
section
/-! DEFINITION. The plain words of the machine: the byte of a frame, the 4-bit logical address
(`20_memory.md` R81). A time or a duration is a plain `Nat`, in microseconds: time is unbounded and no counter of the
core wraps (`00_scope.md` R12). -/

namespace Sys2Proof

/-- One byte of a frame (`20_memory.md` R84). -/
abbrev Byte := BitVec 8

/-- A logical address, 0 to 15 (`20_memory.md` R81). -/
abbrev LogAddr := BitVec 4

end Sys2Proof
end

