-- ==== Sys2Proof/Config.lean ====
section
/-! DEFINITION. The implementation parameters of `00_scope.md` R8, taken as one configuration record, with the
defaults of R8 as the fields' default values, and the constraints of R9. Every rule reads a parameter by name. The
record stands in `State` (field `params`) because `exec` has the host's form and takes nothing else; no step writes
it (`20_memory.md` R94; log entry 2). -/

namespace Sys2Proof

/-- The parameters of `00_scope.md` R8. `candidates` is the table of `43_arbiter.md` R300 as plain data: an
unlisted device type has the empty list. -/
structure Config where
  tSettle : Nat := 20
  tickMax : Nat := 50
  startLowNom : Nat := 3700
  startLowMin : Nat := 3500
  startLowMax : Nat := 3900
  startTotalNom : Nat := 4500
  startTotalMin : Nat := 4300
  startTotalMax : Nat := 4700
  bitNom : Nat := 2400
  bitMin : Nat := 2050
  bitMax : Nat := 2750
  oneLowNom : Nat := 600
  oneLowMin : Nat := 400
  oneLowMax : Nat := 800
  zeroLowNom : Nat := 1500
  zeroLowMin : Nat := 1300
  zeroLowMax : Nat := 1700
  tSample : Nat := 1050
  tAckLow : Nat := 1500
  sftBase : Nat := 5
  sftAfterSuccess : Nat := 7
  sftStep : Nat := 1
  maxAttempts : Nat := 5
  tWaitFreeMax : Nat := 1000000
  maxFrame : Nat := 16
  candidates : List (BitVec 8 × List LogAddr) :=
    [(0, [0, 14]), (1, [1, 2, 9]), (3, [3, 6, 7, 10]), (4, [4, 8, 11]), (5, [5])]
deriving DecidableEq, Repr

/-- The defaults of `00_scope.md` R8. -/
def Config.default : Config := {}

/-- `CANDIDATES(type)`, `43_arbiter.md` R300: the ordered candidate list of a device type, empty where none is listed. -/
def Config.candidatesFor (c : Config) (devType : BitVec 8) : List LogAddr :=
  (c.candidates.lookup devType).getD []

/-- `X_MIN <= X_NOM <= X_MAX` (`00_scope.md` R9). -/
abbrev Config.Band (lo nom hi : Nat) : Prop := lo ≤ nom ∧ nom ≤ hi

/-- The constraints of `00_scope.md` R9, row by row, the range 1..16 that R8 gives `MAX_FRAME`, and what
`43_arbiter.md` R300 says of every candidate list: none contains 15 and no address stands twice in the table. -/
abbrev Config.Wf (c : Config) : Prop :=
  (0 < c.tickMax ∧ 0 < c.tSettle) ∧
  (Config.Band c.startLowMin c.startLowNom c.startLowMax ∧
    Config.Band c.startTotalMin c.startTotalNom c.startTotalMax ∧ Config.Band c.bitMin c.bitNom c.bitMax ∧
    Config.Band c.oneLowMin c.oneLowNom c.oneLowMax ∧ Config.Band c.zeroLowMin c.zeroLowNom c.zeroLowMax) ∧
  c.oneLowMax < c.zeroLowMin ∧
  c.oneLowNom + c.tSettle + c.tickMax ≤ c.tSample ∧
  c.tSample + c.tickMax < c.tAckLow ∧
  (c.zeroLowMin ≤ c.tAckLow ∧ c.tAckLow + c.tSettle + 2 * c.tickMax ≤ c.zeroLowMax) ∧
  c.zeroLowNom + c.tSettle + c.tickMax < c.bitNom ∧
  c.startLowNom + c.tSettle + c.tickMax ≤ c.startTotalNom ∧
  (1 ≤ c.maxAttempts ∧ 1 ≤ c.maxFrame ∧ c.maxFrame ≤ 16) ∧
  c.sftAfterSuccess * c.bitNom < c.tWaitFreeMax ∧
  (c.candidates.flatMap Prod.snd).Nodup ∧ 15#4 ∉ c.candidates.flatMap Prod.snd

end Sys2Proof
end

