-- ==== Sys2Proof/Syntax.lean ====
section
/-! DEFINITION. One constructor per row of `spec/opcode_table.json`, and the transfer (a port and its bytes) in
which an instruction is presented to the machine. The commands are those of `30_encoding.md` R120, the steps those of
`00_scope.md` R6, the line primitives those of R124 and the wire rows those of R110 to R116. -/

namespace Sys2Proof

/-- Where a wire symbol stands in time, in the terms of the trace syntax (`30_encoding.md` R125): `fall` is the time
of its first falling edge ("from t"), and TICKs come every `gap` microseconds after the last one ("TICK every p").
DESIGN CHOICE, log entry 6. -/
structure Sched where
  fall : Nat
  gap : Nat
deriving DecidableEq, Repr

/-- The rows of `spec/opcode_table.json`. In a wire row an ACK-slot operand `a` is the level the other participants
leave at the slot's sample (1 = HIGH, 0 = LOW), as in the trace codes of `95_test_vectors.md`. -/
inductive Instr where
  /-- INIT(phys, type, prom), `44_host_interface.md` R341. -/
  | init (phys : BitVec 16) (devType : BitVec 8) (prom : Bool)
  /-- TRANSMIT(dest, payload), R343. -/
  | transmit (dest : LogAddr) (payload : List Byte)
  /-- GET_LA(), R344. -/
  | getLa
  /-- GET_STATUS(), R345. -/
  | getStatus
  /-- A command with a reserved code, `30_encoding.md` R120. -/
  | reservedCmd (code : BitVec 4)
  /-- RESET(now0), `70_reset_and_hazards.md` R420. -/
  | reset (now0 : Nat)
  /-- TICK(now, line_in), `41_bit_timing.md` R170; `lineIn = true` is HIGH (`00_scope.md` R13). -/
  | tick (now : Nat) (lineIn : Bool)
  /-- READ, `40_line_interface.md` R151. -/
  | read (lineIn : Bool)
  /-- DRIVE(v), R152; `v = true` pulls LOW. -/
  | drive (v : Bool)
  /-- The START symbol, `30_encoding.md` R110. -/
  | start (sch : Sched) (low period : Nat)
  /-- The DATA0 symbol, R110. -/
  | data0 (sch : Sched) (low period : Nat)
  /-- The DATA1 symbol, R110. -/
  | data1 (sch : Sched) (low period : Nat)
  /-- One block `ddddddddea`, R111. -/
  | block (sch : Sched) (d : Byte) (e a : Bool)
  /-- The EOM bit, R114. -/
  | eom (sch : Sched) (e : Bool)
  /-- The ACK slot, R115. -/
  | ackSlot (sch : Sched) (a : Bool)
  /-- The header byte `ssssdddd`, R113. -/
  | header (sch : Sched) (src dst : LogAddr)
  /-- A frame `S (ddddddddea)` with its blocks' bytes and ACK-slot levels, R112; EOM follows from the place. -/
  | frame (sch : Sched) (blocks : List (Byte × Bool))
  /-- A polling frame `S cccccccc 1 a` for candidate `c`, R116. -/
  | poll (sch : Sched) (c : LogAddr) (a : Bool)
deriving DecidableEq, Repr

/-- The ports an instruction can be presented on: the host's command port, the step port (RESET and TICK with their
inputs), the line primitives and the wire (`10_state.md` R32, `00_scope.md` R6 and R7). -/
inductive Port where
  | command
  | step
  | line
  | wire
deriving DecidableEq, Repr

/-- One transfer: a port and its bytes, the first byte first. -/
structure Input where
  port : Port
  bytes : List Byte
deriving DecidableEq, Repr

end Sys2Proof
end

