-- ==== Sys2Proof/WellFormed.lean ====
section
/-! DEFINITION. Which instructions are well formed: what the spec says of an instruction's operands beyond their
widths. The wire bands are parameters, so the check takes the configuration. -/

namespace Sys2Proof

/-- The command codes that spell no command: 0 and 5..15 (`30_encoding.md` R120). -/
def reservedCode (code : BitVec 4) : Bool :=
  code == 0 || decide (5 ≤ code.toNat)

/-- A low time and a period inside inclusive bands (`30_encoding.md` R110), the low time ending inside the period. -/
def symbolOk (low lowMin lowMax period perMin perMax : Nat) : Bool :=
  decide (lowMin ≤ low) && decide (low ≤ lowMax) && decide (perMin ≤ period) && decide (period ≤ perMax)
    && decide (low < period)

/-- TICKs that advance the time (`41_bit_timing.md` R170) at most `TICK_MAX` apart (`70_reset_and_hazards.md` R424). -/
def Sched.wf (c : Config) (sch : Sched) : Bool :=
  decide (0 < sch.gap) && decide (sch.gap ≤ c.tickMax)

/-- Well-formed instructions. The operand widths of the commands are carried by the types; a payload may have any
length (R120), its bound is a response of TRANSMIT (R343). -/
def Instr.wf (c : Config) : Instr → Bool
  | .init _ _ _ => true
  | .transmit _ _ => true
  | .getLa => true
  | .getStatus => true
  | .reservedCmd code => reservedCode code
  | .reset _ => true
  | .tick _ _ => true
  | .read _ => true
  | .drive _ => true
  | .start sch low period =>
    sch.wf c && symbolOk low c.startLowMin c.startLowMax period c.startTotalMin c.startTotalMax
  | .data0 sch low period => sch.wf c && symbolOk low c.zeroLowMin c.zeroLowMax period c.bitMin c.bitMax
  | .data1 sch low period => sch.wf c && symbolOk low c.oneLowMin c.oneLowMax period c.bitMin c.bitMax
  | .block sch _ _ _ => sch.wf c
  | .eom sch _ => sch.wf c
  | .ackSlot sch _ => sch.wf c
  | .header sch _ _ => sch.wf c
  | .frame sch blocks => sch.wf c && decide (1 ≤ blocks.length) && decide (blocks.length ≤ c.maxFrame)
  | .poll sch cand _ => sch.wf c && cand != 15

end Sys2Proof
end

