-- ==== Sys2Proof/Decode.lean ====
section
/-! DEFINITION. Decoding a transfer to an instruction, total on any bytes and rejecting by name, and the encoder
beside it. `30_encoding.md` R120 gives the command codes; the places of the operands, and every code of the step,
line and wire ports, are the model's (DESIGN CHOICE, log entry 4). -/

namespace Sys2Proof

/-- Why a transfer spells no instruction. Each is answered by `decode` and refused by `step`: safe, no state changes. -/
inductive DecodeError where
  /-- The transfer ends before the instruction does. -/
  | truncated
  /-- Non-zero bytes follow the instruction. -/
  | trailing
  /-- A bit that the layout leaves unused is 1. -/
  | reservedBits
  /-- No instruction of the step, line or wire port has this code. -/
  | unknownCode (port : Port) (code : BitVec 4)
deriving DecidableEq, Repr

/-- What the decoder answers. -/
inductive Decoded where
  | ok (i : Instr)
  | error (e : DecodeError)
deriving DecidableEq, Repr

/-! ### Bit fields -/

/-- `v[3:0]` of a byte (`00_scope.md` R10). -/
def lowNibble (b : Byte) : BitVec 4 := b.extractLsb' 0 4

/-- `v[7:4]` of a byte. -/
def highNibble (b : Byte) : BitVec 4 := b.extractLsb' 4 4

/-- `(hi << 4) | lo` (`30_encoding.md` R123). -/
def nibbles (hi lo : BitVec 4) : Byte := hi ++ lo

/-- The flag nibble of a head byte: bit 4 is `x`, bit 5 is `y`, bits 6 and 7 are 0. -/
def flagNibble (x y : Bool) : BitVec 4 := 0#2 ++ BitVec.ofBool y ++ BitVec.ofBool x

/-- Bit `k` of a head byte's flag nibble. -/
def flagBit (h : Byte) (k : Nat) : Bool := (highNibble h).getLsbD k

/-! ### Unbounded naturals: seven bits a byte, the least significant first, bit 7 set on every byte but the last -/

/-- The bytes of `n`, with `fuel` bytes at most before the last. -/
def natBytesFuel : Nat → Nat → List Byte
  | 0, n => [BitVec.ofNat 8 (n % 128)]
  | fuel + 1, n =>
    if n < 128 then [BitVec.ofNat 8 n]
    else BitVec.ofNat 8 (128 + n % 128) :: natBytesFuel fuel (n / 128)

/-- The bytes of `n`. -/
def natBytes (n : Nat) : List Byte := natBytesFuel n.log2 n

/-- Read a natural off the front of a byte list. -/
def takeNat : List Byte → Option (Nat × List Byte)
  | [] => none
  | b :: bs =>
    if b.toNat < 128 then some (b.toNat, bs)
    else match takeNat bs with
      | none => none
      | some (n, r) => some (b.toNat - 128 + 128 * n, r)

/-- Read `n` blocks: a data byte, then a byte 0 or 1 with the ACK-slot level. -/
def takeBlocks : Nat → List Byte → Option (List (Byte × Bool) × List Byte)
  | 0, bs => some ([], bs)
  | n + 1, d :: a :: bs =>
    if a.toNat ≤ 1 then
      match takeBlocks n bs with
      | none => none
      | some (blocks, r) => some ((d, a.getLsbD 0) :: blocks, r)
    else none
  | _ + 1, _ => none

/-! ### The decoder -/

/-- An instruction has been read: only zero padding may follow it. -/
def finish (i : Instr) (rest : List Byte) : Decoded :=
  if rest.all (· == 0#8) then .ok i else .error .trailing

/-- Read one natural and go on. -/
def readNat (bs : List Byte) (k : Nat → List Byte → Decoded) : Decoded :=
  match takeNat bs with
  | none => .error .truncated
  | some (n, r) => k n r

/-- Read one byte and go on. -/
def readByte (bs : List Byte) (k : Byte → List Byte → Decoded) : Decoded :=
  match bs with
  | [] => .error .truncated
  | b :: r => k b r

/-- Read a payload: its length, then that many bytes. -/
def readPayload (bs : List Byte) (k : List Byte → List Byte → Decoded) : Decoded :=
  readNat bs fun n r => if n ≤ r.length then k (r.take n) (r.drop n) else .error .truncated

/-- Read the blocks of a frame: their number, then the blocks. -/
def readBlocks (bs : List Byte) (k : List (Byte × Bool) → List Byte → Decoded) : Decoded :=
  readNat bs fun n r =>
    match takeBlocks n r with
    | none => .error .truncated
    | some (blocks, r') => k blocks r'

/-- Read the schedule of a wire symbol: the falling edge's time and the gap between TICKs. -/
def readSched (bs : List Byte) (k : Sched → List Byte → Decoded) : Decoded :=
  readNat bs fun fall r => readNat r fun gap r' => k ⟨fall, gap⟩ r'

/-- Go on only if the flag nibble of a head byte, masked with `unused`, is 0. -/
def unusedZero (h : Byte) (unused : BitVec 4) (d : Decoded) : Decoded :=
  if highNibble h &&& unused = 0 then d else .error .reservedBits

/-- The command port: the 4-bit code in bits 3..0 of the first byte tells the operands (R120). Bits the table's mask
does not cover and no operand uses are not compared. INIT has `prom` in bit 4, `type` in bits 15..8 and `phys` in bits
31..16; TRANSMIT has `dest` in bits 7..4, then the payload's length and bytes. -/
def decodeCommand (bytes : List Byte) : Decoded :=
  readByte bytes fun h bs =>
    match (lowNibble h).toNat with
    | 1 => readByte bs fun ty r => readByte r fun p0 r => readByte r fun p1 r =>
        finish (.init (p1 ++ p0) ty (flagBit h 0)) r
    | 2 => readPayload bs fun payload r => finish (.transmit (highNibble h) payload) r
    | 3 => finish .getLa bs
    | 4 => finish .getStatus bs
    | _ => finish (.reservedCmd (lowNibble h)) bs

/-- The step port: code 0 is RESET(now0), code 1 is TICK(now, line_in) with `line_in` in bit 4. -/
def decodeStep (bytes : List Byte) : Decoded :=
  readByte bytes fun h bs =>
    match (lowNibble h).toNat with
    | 0 => unusedZero h 15 (readNat bs fun now0 r => finish (.reset now0) r)
    | 1 => unusedZero h 14 (readNat bs fun now r => finish (.tick now (flagBit h 0)) r)
    | _ => .error (.unknownCode .step (lowNibble h))

/-- The line port: code 0 is READ with the level in bit 4, code 1 is DRIVE with `v` in bit 4. -/
def decodeLine (bytes : List Byte) : Decoded :=
  readByte bytes fun h bs =>
    match (lowNibble h).toNat with
    | 0 => unusedZero h 14 (finish (.read (flagBit h 0)) bs)
    | 1 => unusedZero h 14 (finish (.drive (flagBit h 0)) bs)
    | _ => .error (.unknownCode .line (lowNibble h))

/-- The wire port: codes 0 to 8 in the opcode table's order, then the schedule, then the operands. -/
def decodeWire (bytes : List Byte) : Decoded :=
  readByte bytes fun h bs =>
    match (lowNibble h).toNat with
    | 0 => unusedZero h 15 (readSched bs fun sch r => readNat r fun low r => readNat r fun per r =>
        finish (.start sch low per) r)
    | 1 => unusedZero h 15 (readSched bs fun sch r => readNat r fun low r => readNat r fun per r =>
        finish (.data0 sch low per) r)
    | 2 => unusedZero h 15 (readSched bs fun sch r => readNat r fun low r => readNat r fun per r =>
        finish (.data1 sch low per) r)
    | 3 => unusedZero h 12 (readSched bs fun sch r => readByte r fun d r =>
        finish (.block sch d (flagBit h 0) (flagBit h 1)) r)
    | 4 => unusedZero h 14 (readSched bs fun sch r => finish (.eom sch (flagBit h 0)) r)
    | 5 => unusedZero h 14 (readSched bs fun sch r => finish (.ackSlot sch (flagBit h 0)) r)
    | 6 => unusedZero h 15 (readSched bs fun sch r => readByte r fun b r =>
        finish (.header sch (highNibble b) (lowNibble b)) r)
    | 7 => unusedZero h 15 (readSched bs fun sch r => readBlocks r fun blocks r =>
        finish (.frame sch blocks) r)
    | 8 => unusedZero h 14 (readSched bs fun sch r => readByte r fun b r =>
        unusedZero b 15 (finish (.poll sch (lowNibble b) (flagBit h 0)) r))
    | _ => .error (.unknownCode .wire (lowNibble h))

/-- The decoder: total on every transfer. -/
def decode (inp : Input) : Decoded :=
  match inp.port with
  | .command => decodeCommand inp.bytes
  | .step => decodeStep inp.bytes
  | .line => decodeLine inp.bytes
  | .wire => decodeWire inp.bytes

/-! ### The encoder -/

/-- The bytes of a schedule. -/
def schedBytes (sch : Sched) : List Byte := natBytes sch.fall ++ natBytes sch.gap

/-- The bytes of a frame's blocks. -/
def blockBytes (blocks : List (Byte × Bool)) : List Byte :=
  blocks.flatMap fun p => [p.1, (BitVec.ofBool p.2).zeroExtend 8]

/-- The transfer of an instruction. -/
def encode : Instr → Input
  | .init phys ty prom =>
    ⟨.command, [nibbles (flagNibble prom false) 1, ty, phys.extractLsb' 0 8, phys.extractLsb' 8 8]⟩
  | .transmit dest payload => ⟨.command, nibbles dest 2 :: (natBytes payload.length ++ payload)⟩
  | .getLa => ⟨.command, [nibbles 0 3]⟩
  | .getStatus => ⟨.command, [nibbles 0 4]⟩
  | .reservedCmd code => ⟨.command, [nibbles 0 code]⟩
  | .reset now0 => ⟨.step, nibbles 0 0 :: natBytes now0⟩
  | .tick now lineIn => ⟨.step, nibbles (flagNibble lineIn false) 1 :: natBytes now⟩
  | .read lineIn => ⟨.line, [nibbles (flagNibble lineIn false) 0]⟩
  | .drive v => ⟨.line, [nibbles (flagNibble v false) 1]⟩
  | .start sch low per => ⟨.wire, nibbles 0 0 :: (schedBytes sch ++ natBytes low ++ natBytes per)⟩
  | .data0 sch low per => ⟨.wire, nibbles 0 1 :: (schedBytes sch ++ natBytes low ++ natBytes per)⟩
  | .data1 sch low per => ⟨.wire, nibbles 0 2 :: (schedBytes sch ++ natBytes low ++ natBytes per)⟩
  | .block sch d e a => ⟨.wire, nibbles (flagNibble e a) 3 :: (schedBytes sch ++ [d])⟩
  | .eom sch e => ⟨.wire, nibbles (flagNibble e false) 4 :: schedBytes sch⟩
  | .ackSlot sch a => ⟨.wire, nibbles (flagNibble a false) 5 :: schedBytes sch⟩
  | .header sch src dst => ⟨.wire, nibbles 0 6 :: (schedBytes sch ++ [nibbles src dst])⟩
  | .frame sch blocks => ⟨.wire, nibbles 0 7 :: (schedBytes sch ++ natBytes blocks.length ++ blockBytes blocks)⟩
  | .poll sch c a => ⟨.wire, nibbles (flagNibble a false) 8 :: (schedBytes sch ++ [nibbles 0 c])⟩

/-! ### The opcode table's words -/

/-- The transfer of a word of the opcode table: its `nbits` bits from bit 0 of the first byte, every later bit 0. The
table gives bits to the command rows only, and the longest fixed part of a command has four bytes. -/
def tableInput (nbits w : Nat) : Input :=
  ⟨.command, (List.range ((nbits + 7) / 8)).map (fun k => BitVec.ofNat 8 (w % 2 ^ nbits / 256 ^ k)) ++
    List.replicate 4 0#8⟩

/-- The instruction the decoder reads from a word of the opcode table. -/
def decodeTableWord (nbits w : Nat) : Option Instr :=
  match decode (tableInput nbits w) with
  | .ok i => some i
  | .error _ => none

end Sys2Proof
end

