-- ==== Sys2Proof/Machine/State.lean ====
section
/-! DEFINITION. The state of the core as plain data: every register of `10_state.md` R33 to R40, grouped as its
tables group them, beside the parameters (`00_scope.md` R8) and the ports (R32). A 1-bit register is a `Bool`
(1 = true); an enumeration of width w has a constructor for each of its 2^w codes, the codes no rule writes included,
so that R193 can say what happens in them. Counters whose width the spec ties to a parameter are naturals. -/

namespace Sys2Proof.Machine

/-- `alloc` (R34), 2 bits. -/
inductive Alloc where
  | uninit
  | polling
  | claimed
  | failed
deriving DecidableEq, Repr

/-- `st` (R35), 3 bits; the codes 6 and 7 are never written. -/
inductive EngineState where
  | idle
  | awaitStart
  | sendStart
  | bitPeriod
  | ackWindow
  | interframeGap
  | code6
  | code7
deriving DecidableEq, Repr

/-- `ph` (R35), 2 bits; the code 3 is never written. -/
inductive Phase where
  | driveLowEdge
  | sampleRelease
  | fullBitWait
  | code3
deriving DecidableEq, Repr

/-- `role` (R35), 2 bits; the code 3 is never written. -/
inductive Role where
  | none
  | tx
  | rx
  | code3
deriving DecidableEq, Repr

/-- `tx_kind` (R39), 1 bit. -/
inductive TxKind where
  | host
  | poll
deriving DecidableEq, Repr

/-- `tx_outcome` (R39, `30_encoding.md` R122), 3 bits; the codes 6 and 7 are never written. -/
inductive TxOutcome where
  | none
  | success
  | nak
  | arbLost
  | busError
  | timeout
  | code6
  | code7
deriving DecidableEq, Repr

/-- The events of `30_encoding.md` R121. -/
inductive Event where
  | ready (la : LogAddr)
  | allocFailed
  | rxComplete (bytes : List Byte) (acks : List Bool) (ack : Bool)
  | txComplete (bytes : List Byte) (acks : List Bool) (ok : Bool) (outcome : TxOutcome)
deriving DecidableEq, Repr

/-- The record GET_STATUS answers with, field by field (`44_host_interface.md` R345). The enumerations stand as their
numeric codes. `tx_attempt` is a natural, like its register, where R345 gives it
3 bits (log entry 10). -/
structure Status where
  alloc : BitVec 2
  la : LogAddr
  candIdx : BitVec 4
  phys : BitVec 16
  devType : BitVec 8
  prom : Bool
  st : BitVec 3
  role : BitVec 2
  txPending : Bool
  txKind : BitVec 1
  txAttempt : Nat
  txOutcome : BitVec 3
  initPending : Bool
deriving DecidableEq, Repr

/-- What a command or a line read returns (`30_encoding.md` R122, `44_host_interface.md` R344 and R345,
`40_line_interface.md` R151). -/
inductive Response where
  | accepted
  | rejectNotReady
  | rejectBusy
  | rejectLength
  | logAddr (la : LogAddr)
  | status (r : Status)
  | level (lineIn : Bool)
deriving DecidableEq, Repr

/-- Configuration registers (R33). -/
structure CfgRegs where
  phys : BitVec 16
  devType : BitVec 8
  prom : Bool
deriving DecidableEq, Repr

/-- Session registers (R34). -/
structure SessionRegs where
  alloc : Alloc
  la : LogAddr
  candIdx : BitVec 4
deriving DecidableEq, Repr

/-- Engine sequencer registers (R35). -/
structure SeqRegs where
  st : EngineState
  ph : Phase
  role : Role
  bitIdx : BitVec 4
  blk : BitVec 4
deriving DecidableEq, Repr

/-- Line interface registers (R36). -/
structure LineRegs where
  driveLow : Bool
  tDrive : Nat
  lastLine : Bool
deriving DecidableEq, Repr

/-- Timestamp registers (R37). -/
structure TimeRegs where
  tFall : Nat
  tFree : Nat
  tLast : Nat
  tAttempt : Nat
deriving DecidableEq, Repr

/-- Receive datapath registers (R38). `buf` and `ack` are the `MAX_FRAME` entries of `rx_buf` and `rx_ack`. -/
structure RxRegs where
  shift : Byte
  eom : Bool
  buf : List Byte
  ack : List Bool
  len : BitVec 5
  ackMe : Bool
deriving DecidableEq, Repr

/-- Transmit datapath registers (R39). `buf` and `ack` are the `MAX_FRAME` entries of `tx_buf` and `tx_ack`. -/
structure TxRegs where
  buf : List Byte
  len : BitVec 5
  ack : List Bool
  pending : Bool
  kind : TxKind
  attempt : Nat
  sft : Nat
  outcome : TxOutcome
  postSuccess : Bool
deriving DecidableEq, Repr

/-- The pending-initialization latch (R40). -/
structure PInitRegs where
  valid : Bool
  phys : BitVec 16
  devType : BitVec 8
  prom : Bool
deriving DecidableEq, Repr

/-- The machine. `params` is the configuration record (`00_scope.md` R8). `input` is the model's own field: the
transfers presented to the core and not yet taken (log entry 3). `events` and `response` are the event port and the
command port's output of the last step (R32, `44_host_interface.md` R346; log entry 5). -/
structure State where
  params : Config
  cfg : CfgRegs
  session : SessionRegs
  seq : SeqRegs
  line : LineRegs
  time : TimeRegs
  rx : RxRegs
  tx : TxRegs
  pinit : PInitRegs
  input : List Input
  events : List Event
  response : Option Response
deriving DecidableEq, Repr

/-- The core has no fault: no condition stops it (`60_exceptions.md` R380). The type has no constructor. -/
inductive Fault where
deriving DecidableEq, Repr

/-- Why a step is not admitted. -/
inductive Refusal where
  /-- An arm of `exec` that has no meaning yet; no arm of this model answers it. Safe: the run stops. -/
  | notModelled (mnemonic : String)
  /-- RESERVED_CMD: a command with a reserved code spells no command; the step is not admitted and the state does not
  change (`30_encoding.md` R120, `44_host_interface.md` R340). Safe: it is the spec's own refusal. -/
  | reservedCommand (code : BitVec 4)
  /-- TICK with `now <= t_last`: the step is not admitted and the state does not change (`41_bit_timing.md` R170,
  `60_exceptions.md` R380). Safe: it is the spec's own refusal. -/
  | staleTick (now tLast : Nat)
  /-- `step` was presented a transfer that spells no instruction (log entry 4). Safe: no state changes. -/
  | undecodable (e : DecodeError)
deriving DecidableEq, Repr

/-- The machine right after `RESET(0)` (`70_reset_and_hazards.md` R420) with the default parameters of `00_scope.md`
R8 and nothing presented on its ports. The time 0 of the reset is a DESIGN CHOICE (log entry 1). -/
def State.reset : State where
  params := Config.default
  cfg := { phys := 0xFFFF, devType := 0xFF, prom := false }
  session := { alloc := .uninit, la := 0xF, candIdx := 0 }
  seq := { st := .idle, ph := .driveLowEdge, role := .none, bitIdx := 0, blk := 0 }
  line := { driveLow := false, tDrive := 0, lastLine := false }
  time := { tFall := 0, tFree := 0, tLast := 0, tAttempt := 0 }
  rx := { shift := 0, eom := false, buf := List.replicate Config.default.maxFrame 0,
          ack := List.replicate Config.default.maxFrame false, len := 0, ackMe := false }
  tx := { buf := List.replicate Config.default.maxFrame 0, len := 0,
          ack := List.replicate Config.default.maxFrame false, pending := false, kind := .host, attempt := 0,
          sft := Config.default.sftBase, outcome := .none, postSuccess := false }
  pinit := { valid := false, phys := 0, devType := 0, prom := false }
  input := []
  events := []
  response := none

end Sys2Proof.Machine
end

