-- ==== Sys2Proof/Machine/Operands.lean ====
section
/-! DEFINITION. The operand forms: the numeric codes of the enumerations (D31, `30_encoding.md` R122), header and
frame assembly (R113, R123), the buffers' parts that an event carries (`20_memory.md` R83), the bit a transmitter
sends (`41_bit_timing.md` R179), and the waveforms of the wire symbols (R110, R115). -/

namespace Sys2Proof.Machine

/-! ### Numeric codes -/

/-- The code of `alloc` (R34). -/
def allocCode : Alloc → BitVec 2
  | .uninit => 0
  | .polling => 1
  | .claimed => 2
  | .failed => 3

/-- The code of `st` (R35). -/
def stCode : EngineState → BitVec 3
  | .idle => 0
  | .awaitStart => 1
  | .sendStart => 2
  | .bitPeriod => 3
  | .ackWindow => 4
  | .interframeGap => 5
  | .code6 => 6
  | .code7 => 7

/-- The code of `ph` (R35). -/
def phCode : Phase → BitVec 2
  | .driveLowEdge => 0
  | .sampleRelease => 1
  | .fullBitWait => 2
  | .code3 => 3

/-- The code of `role` (R35). -/
def roleCode : Role → BitVec 2
  | .none => 0
  | .tx => 1
  | .rx => 2
  | .code3 => 3

/-- The code of `tx_kind` (R39): HOST is 0. -/
def kindCode : TxKind → BitVec 1
  | .host => 0
  | .poll => 1

/-- The code of an outcome (R122). -/
def outcomeCode : TxOutcome → BitVec 3
  | .none => 0
  | .success => 1
  | .nak => 2
  | .arbLost => 3
  | .busError => 4
  | .timeout => 5
  | .code6 => 6
  | .code7 => 7

/-- The code of a response to INIT or TRANSMIT (R122); the other responses are values, not codes. -/
def responseCode : Response → Option Nat
  | .accepted => some 0
  | .rejectNotReady => some 1
  | .rejectBusy => some 2
  | .rejectLength => some 3
  | .logAddr _ => none
  | .status _ => none
  | .level _ => none

/-! ### Headers and frames -/

/-- The source of a header, `h[7:4]` (R113). -/
def headerSrc (h : Byte) : LogAddr := highNibble h

/-- The destination of a header, `h[3:0]` (R113). -/
def headerDst (h : Byte) : LogAddr := lowNibble h

/-- The header `(src << 4) | dst` (R113, R123). -/
def headerByte (src dst : LogAddr) : Byte := nibbles src dst

/-- `tx_buf` after `tx_buf[i] <- frame[i]` for every byte of the frame; the entries after it are not written (R123).
A buffer shorter than the frame grows to hold it: DESIGN CHOICE, log entry 9. -/
def storeFrame (frame buf : List Byte) : List Byte := frame ++ buf.drop frame.length

/-- `tx_buf[0 .. tx_len-1]` (`20_memory.md` R83). A slice of a buffer, here and in the three below, is cut at the end of a
buffer that is shorter: DESIGN CHOICE, log entry 9. -/
def txBytes (t : TxRegs) : List Byte := t.buf.take t.len.toNat

/-- `tx_ack[0 .. tx_len-1]`, cut at the buffer's end (log entry 9). -/
def txAcks (t : TxRegs) : List Bool := t.ack.take t.len.toNat

/-- `rx_buf[0 .. rx_len-1]`, cut at the buffer's end (log entry 9). -/
def rxBytes (r : RxRegs) : List Byte := r.buf.take r.len.toNat

/-- `rx_ack[0 .. rx_len-1]`, cut at the buffer's end (log entry 9). -/
def rxAcks (r : RxRegs) : List Bool := r.ack.take r.len.toNat

/-- `tx_buf[0]`, the header of the frame being sent (R123). An absent entry reads 0 (log entry 9). -/
def txHeader (t : TxRegs) : Byte := t.buf.getD 0 0

/-- `rx_buf[0]`, the header of the frame being received. -/
def rxHeader (r : RxRegs) : Byte := r.buf.getD 0 0

/-- `blk = tx_len - 1`: the current block is the frame's last. With `tx_len = 0` the difference is 0: DESIGN CHOICE, log
entry 21. -/
def lastBlock (q : SeqRegs) (t : TxRegs) : Bool := q.blk.toNat == t.len.toNat - 1

/-- TxBit (`41_bit_timing.md` R179): data most significant bit first (`20_memory.md` R85), then EOM (R114), then the
ACK slot's 1 (R115). -/
def txBit (q : SeqRegs) (t : TxRegs) : Bool :=
  if q.bitIdx.toNat ≤ 7 then (t.buf.getD q.blk.toNat 0).getLsbD (7 - q.bitIdx.toNat)
  else if q.bitIdx.toNat = 8 then lastBlock q t
  else true

/-- `((shift << 1) | v)[7:0]` (R181, R187, R199). -/
def shiftIn (shift : Byte) (v : Bool) : Byte := (shift <<< 1) ||| (BitVec.ofBool v).zeroExtend 8

/-- GET_STATUS's record (`44_host_interface.md` R345). -/
def statusOf (s : State) : Status where
  alloc := allocCode s.session.alloc
  la := s.session.la
  candIdx := s.session.candIdx
  phys := s.cfg.phys
  devType := s.cfg.devType
  prom := s.cfg.prom
  st := stCode s.seq.st
  role := roleCode s.seq.role
  txPending := s.tx.pending
  txKind := kindCode s.tx.kind
  txAttempt := s.tx.attempt
  txOutcome := outcomeCode s.tx.outcome
  initPending := s.pinit.valid

/-! ### Waveforms of the wire symbols -/

/-- One bit period on the wire: LOW for `low`, then released for the rest of `period` (`30_encoding.md` R110). -/
structure Pulse where
  low : Nat
  period : Nat
deriving DecidableEq, Repr

/-- The nominal START symbol (R110). -/
def startPulse (c : Config) : Pulse := ⟨c.startLowNom, c.startTotalNom⟩

/-- The nominal DATA1 or DATA0 symbol (R110). -/
def bitPulse (c : Config) (b : Bool) : Pulse :=
  ⟨if b then c.oneLowNom else c.zeroLowNom, c.bitNom⟩

/-- The ACK slot as the other participants leave it (R115): the initiator's DATA1, which a follower that pulls LOW
(`a = 0`) stretches to `T_ACK_LOW`. -/
def ackPulse (c : Config) (a : Bool) : Pulse :=
  ⟨if a then c.oneLowNom else c.tAckLow, c.bitNom⟩

/-- The bits of a byte on the wire, D7 first (`20_memory.md` R85). -/
def byteBits (d : Byte) : List Bool := (List.range 8).map fun k => d.getLsbD (7 - k)

/-- The 8 data bit periods of a byte. -/
def bytePulses (c : Config) (d : Byte) : List Pulse := (byteBits d).map (bitPulse c)

/-- One block `ddddddddea` (R111). -/
def blockPulses (c : Config) (d : Byte) (e a : Bool) : List Pulse :=
  bytePulses c d ++ [bitPulse c e, ackPulse c a]

/-- The blocks of a frame in order, EOM = 1 in the last one only (R112, R114). -/
def blocksPulses (c : Config) : List (Byte × Bool) → List Pulse
  | [] => []
  | (d, a) :: rest => blockPulses c d rest.isEmpty a ++ blocksPulses c rest

/-- A frame: START, then its blocks (R112). -/
def framePulses (c : Config) (blocks : List (Byte × Bool)) : List Pulse :=
  startPulse c :: blocksPulses c blocks

/-- The time a list of bit periods takes. -/
def totalPeriod : List Pulse → Nat
  | [] => 0
  | p :: rest => p.period + totalPeriod rest

/-- The level the other participants leave on the line `d` after the first falling edge of a list of bit periods:
LOW through each low time, released (HIGH) otherwise and after the last period. -/
def levelAfter : List Pulse → Nat → Bool
  | [], _ => true
  | p :: rest, d => if d < p.low then false else if d < p.period then true else levelAfter rest (d - p.period)

/-- That level at time `t`, for a first falling edge at `fall`; before it the line is released. -/
def levelAt (pulses : List Pulse) (fall t : Nat) : Bool :=
  if t < fall then true else levelAfter pulses (t - fall)

end Sys2Proof.Machine
end

