-- ==== Sys2Proof/Machine/Flags.lean ====
section
/-! DEFINITION. Every flag and classification the rules compute: read validity and edges (`40_line_interface.md`
R153, R154), elapsed time (`41_bit_timing.md` R171), the decoding of a low time (R186), the framer's decisions
(`42_framer.md` R256 to R259, R266) and the invariants that a state with a handler meets (`10_state.md` R44). -/

namespace Sys2Proof.Machine

/-- What one TICK has sampled: its inputs and the flags computed from them (R153, R154, R171). -/
structure Sample where
  now : Nat
  lineIn : Bool
  valid : Bool
  fall : Bool
  rise : Bool
  el : Nat
deriving DecidableEq, Repr

/-- `valid = (now - t_drive >= T_SETTLE)` (R153). -/
def readValid (now : Nat) (s : State) : Bool := decide (s.params.tSettle ≤ now - s.line.tDrive)

/-- The sample of a TICK (R170): `valid` from R153, `fall` and `rise` from R154, `el` from R171. -/
def sampleOf (now : Nat) (lineIn : Bool) (s : State) : Sample where
  now := now
  lineIn := lineIn
  valid := readValid now s
  fall := readValid now s && s.line.lastLine && !lineIn
  rise := readValid now s && !s.line.lastLine && lineIn
  el := now - s.time.tFall

/-- `lo <= x <= hi`: every band is inclusive (`30_encoding.md` R110). -/
def inBand (lo x hi : Nat) : Bool := decide (lo ≤ x) && decide (x ≤ hi)

/-- Classify (R186): `none` is ERR. The cases are tried in the order R186 writes them, so that a low time in both bands
is a 1; R9's `ONE_LOW_MAX < ZERO_LOW_MIN` leaves no such time, and without it the order is the model's own. DESIGN CHOICE,
log entry 20. -/
def classify (c : Config) (low : Nat) : Option Bool :=
  if inBand c.oneLowMin low c.oneLowMax then some true
  else if inBand c.zeroLowMin low c.zeroLowMax then some false
  else none

/-- Directed(h) (`42_framer.md` R258). -/
def directed (h : Byte) : Bool := headerDst h != 15#4

/-- AckOf(directed, v) (R257). -/
def ackOf (isDirected v : Bool) : Bool := if isDirected then !v else v

/-- AckMe(h) (R256). -/
def ackMe (g : SessionRegs) (h : Byte) : Bool :=
  g.alloc == .claimed && headerDst h == g.la && headerDst h != 15#4

/-- Wanted(h) (R259). -/
def wanted (k : CfgRegs) (g : SessionRegs) (h : Byte) : Bool :=
  k.prom || headerDst h == 15#4 || (g.alloc == .claimed && headerDst h == g.la)

/-- The AND of a frame's per-block acks (R266). Over no acks at all, which only a cut slice has, it is 1: DESIGN CHOICE, log
entry 9. -/
def frameAck (acks : List Bool) : Bool := acks.all id

/-- A register holds a code that no rule writes (`10_state.md` R35, `30_encoding.md` R126). -/
def unwrittenCode (s : State) : Bool :=
  s.seq.st == .code6 || s.seq.st == .code7 || s.seq.ph == .code3 || s.seq.role == .code3 ||
    s.tx.outcome == .code6 || s.tx.outcome == .code7

/-! ### The invariants of `10_state.md` R44 (item 8 holds by the form of State: it has one transmit datapath) -/

/-- The codes that no rule writes are in no register (R35, `30_encoding.md` R126). -/
abbrev CodesOk (s : State) : Prop := unwrittenCode s = false

/-- R44, 1 to 3: how `st` and `role` go together. -/
abbrev SeqOk (q : SeqRegs) : Prop :=
  (q.st = .sendStart → q.role = .tx) ∧
  (q.role = .tx → q.st = .sendStart ∨ q.st = .bitPeriod ∨ q.st = .ackWindow ∨ q.st = .interframeGap) ∧
  (q.st = .awaitStart → q.role = .rx) ∧
  (q.st = .idle → q.role = .none)

/-- R44, 4: when the core may pull the line LOW. -/
abbrev DriveOk (s : State) : Prop :=
  s.line.driveLow = true →
    (s.seq.role = .tx ∧ (s.seq.st = .sendStart ∨ s.seq.st = .bitPeriod ∨ s.seq.st = .ackWindow) ∧
      s.seq.ph = .driveLowEdge) ∨
    (s.seq.role = .rx ∧ s.seq.st = .ackWindow ∧ s.seq.ph = .driveLowEdge ∧ s.rx.ackMe = true)

/-- R44, 5: a pending transmission has a frame and attempts left. -/
abbrev PendingOk (s : State) : Prop :=
  s.tx.pending = true →
    1 ≤ s.tx.len.toNat ∧ s.tx.len.toNat ≤ s.params.maxFrame ∧ s.tx.attempt < s.params.maxAttempts

/-- R44, 6 and 7: a pending poll belongs to an allocation, and a claimed address is a candidate. -/
abbrev SessionOk (s : State) : Prop :=
  (s.tx.kind = .poll → s.tx.pending = true → s.session.alloc = .polling) ∧
  (s.session.alloc = .claimed → s.session.la ∈ s.params.candidatesFor s.cfg.devType)

/-- What `00_scope.md` R9 asks of `MAX_ATTEMPTS` and `MAX_FRAME`. -/
abbrev AttemptParamsOk (c : Config) : Prop := 1 ≤ c.maxAttempts ∧ 1 ≤ c.maxFrame ∧ c.maxFrame ≤ 16

/-- A state that R193 lets a handler serve as far as its registers go: no unwritten code (`93_implementation_defined.md`
item 15), and none of R44's invariants broken (item 16). Item 5 counts only where the parameters meet R9's constraint for
it, because the rules themselves break it elsewhere (DEDUCED, log entry 8). -/
def legal (s : State) : Bool :=
  !unwrittenCode s && decide (SeqOk s.seq) && decide (DriveOk s) &&
    decide (AttemptParamsOk s.params → PendingOk s) && decide (SessionOk s)

/-- `legal` as a proposition. -/
abbrev Legal (s : State) : Prop := legal s = true

/-- The bus has been free long enough for a pending attempt (`43_arbiter.md` R290). -/
def busFree (p : Sample) (s : State) : Bool :=
  p.valid && p.lineIn && decide (s.tx.sft * s.params.bitNom ≤ p.now - s.time.tFree)

/-- A pending attempt has waited too long (R297). -/
def waitedOut (now : Nat) (s : State) : Bool := decide (s.params.tWaitFreeMax ≤ now - s.time.tAttempt)

/-- A latched INIT is due (`41_bit_timing.md` R170, `44_host_interface.md` R342). -/
def initDue (s : State) : Bool :=
  s.pinit.valid && (s.seq.st == .idle || s.seq.st == .interframeGap) && !(s.tx.pending && s.tx.kind == .host)

/-- The signal free time of a transmission being armed (`43_arbiter.md` R291). -/
def armedSft (c : Config) (postSuccess : Bool) : Nat := if postSuccess then c.sftAfterSuccess else c.sftBase

end Sys2Proof.Machine
end

