-- ==== Sys2Proof/Machine/Ops.lean ====
section
/-! DEFINITION. The shared operations over the registers. The core has no addressable memory (`20_memory.md` R80)
and no trap (`60_exceptions.md` R380): what stands in their place is the drive and the frame buffers, the abort of a
reception (R191) and the end of a transmission attempt (R298), each said once here. -/

namespace Sys2Proof.Machine

/-- No output yet: the ports as a step finds them (`44_host_interface.md` R346: no event is kept). -/
def clearPorts (s : State) : State := { s with events := [], response := none }

/-- A command's or a read's answer on the command port. -/
def respond (r : Response) (s : State) : State := { s with response := some r }

/-- Emit(e) (R346). -/
def emit (e : Event) (s : State) : State := { s with events := s.events ++ [e] }

/-- SetDrive(v) at time `now` (`40_line_interface.md` R152). -/
def setDrive (now : Nat) (v : Bool) (s : State) : State :=
  if v = s.line.driveLow then s
  else { s with line := { s.line with driveLow := v, tDrive := now } }

/-- The sequencer goes to `st` and `role`, and keeps its other registers. -/
def goTo (st : EngineState) (role : Role) (s : State) : State :=
  { s with seq := { s.seq with st := st, role := role } }

/-- The sub-phase becomes `ph`. -/
def setPhase (ph : Phase) (s : State) : State := { s with seq := { s.seq with ph := ph } }

/-- StartBit(st) (`41_bit_timing.md` R192). -/
def startBit (now : Nat) (st : EngineState) (s : State) : State :=
  let s := setDrive now true s
  { s with time := { s.time with tFall := now }, seq := { s.seq with ph := .driveLowEdge, st := st } }

/-- RxError() (R191): the abort of a reception. -/
def rxError (now : Nat) (s : State) : State :=
  setPhase .driveLowEdge (goTo .idle .none (setDrive now false s))

/-- Another participant's falling edge begins a start bit (R173, R174). -/
def enterAwaitStart (now : Nat) (s : State) : State :=
  { s with
    seq := { s.seq with st := .awaitStart, role := .rx, ph := .driveLowEdge }
    time := { s.time with tFall := now }
    tx := { s.tx with postSuccess := false } }

/-- `x[i] <- 0 for every i` of an ACK record. -/
def clearAcks (c : Config) : List Bool := List.replicate c.maxFrame false

/-- The receive record begins a frame: `rx_len <- 0; ack_me <- 0; rx_ack[i] <- 0` (R176, R181). -/
def clearRxRecord (s : State) : State :=
  { s with rx := { s.rx with len := 0, ackMe := false, ack := clearAcks s.params } }

/-- ArmPoll(c) (`43_arbiter.md` R302). -/
def armPoll (now : Nat) (c : LogAddr) (s : State) : State :=
  { s with
    tx := { s.tx with
      buf := storeFrame [headerByte c c] s.tx.buf, len := 1, kind := .poll, pending := true, attempt := 0
      sft := armedSft s.params s.tx.postSuccess, ack := clearAcks s.params }
    time := { s.time with tAttempt := now } }

/-- An allocation ends without an address: `alloc <- FAILED`, ALLOC_FAILED (R304, R306). -/
def allocFail (s : State) : State :=
  emit .allocFailed { s with session := { s.session with alloc := .failed }, tx := { s.tx with pending := false } }

/-- `cand_idx <- cand_idx + 1` (R304). -/
def advanceIdx (s : State) : State :=
  { s with session := { s.session with candIdx := s.session.candIdx + 1 } }

/-- NextCandidate() (R304). -/
def nextCandidate (now : Nat) (s : State) : State :=
  let s := advanceIdx s
  match (s.params.candidatesFor s.cfg.devType)[s.session.candIdx.toNat]? with
  | none => allocFail s
  | some c => armPoll now c s

/-- An attempt failed and another one follows: the growing wait of R291, counted from now (R298). -/
def rearm (now : Nat) (s : State) : State :=
  { s with
    tx := { s.tx with sft := s.params.sftBase + s.tx.attempt * s.params.sftStep }
    time := { s.time with tAttempt := now } }

/-- The candidate is free: it is claimed (R305). -/
def claim (c : LogAddr) (s : State) : State :=
  emit (.ready c)
    { s with session := { s.session with la := c, alloc := .claimed }, tx := { s.tx with pending := false } }

/-- A host transmission ends (R298, `44_host_interface.md` R349). The acks are what `tx_ack` holds. Where the last attempt
ends in TIMEOUT it has started no frame and cleared nothing, so they are those of the last attempt that did: DESIGN CHOICE,
log entry 22. -/
def completeTx (ok : Bool) (o : TxOutcome) (s : State) : State :=
  emit (.txComplete (txBytes s.tx) (txAcks s.tx) ok o) { s with tx := { s.tx with pending := false } }

/-- `tx_attempt <- tx_attempt + 1` (R298). -/
def countAttempt (s : State) : State := { s with tx := { s.tx with attempt := s.tx.attempt + 1 } }

/-- `tx_outcome <- o; post_success <- (1 if o = SUCCESS else 0)` (R298, R292). -/
def recordOutcome (o : TxOutcome) (s : State) : State :=
  { s with tx := { s.tx with outcome := o, postSuccess := o == TxOutcome.success } }

/-- AttemptEnd(o) (R298). -/
def attemptEnd (now : Nat) (o : TxOutcome) (s : State) : State :=
  let s := recordOutcome o s
  match s.tx.kind with
  | .poll =>
    if o = TxOutcome.success then nextCandidate now s
    else if o = TxOutcome.nak then claim (lowNibble (txHeader s.tx)) s
    else
      let s := countAttempt s
      if s.params.maxAttempts ≤ s.tx.attempt then nextCandidate now s else rearm now s
  | .host =>
    if o = TxOutcome.success then completeTx true .success s
    else
      let s := countAttempt s
      if s.params.maxAttempts ≤ s.tx.attempt then completeTx false o s else rearm now s

/-- What ApplyInit does before it looks at the candidate list: the latch becomes the configuration, the address is
released and the engine is in IDLE (`44_host_interface.md` R342). -/
def releaseSession (s : State) : State :=
  { s with
    cfg := { phys := s.pinit.phys, devType := s.pinit.devType, prom := s.pinit.prom }
    pinit := { s.pinit with valid := false }
    session := { s.session with la := 0xF, candIdx := 0 }
    tx := { s.tx with pending := false }
    seq := { s.seq with st := .idle, role := .none } }

/-- `alloc <- POLLING` (R342). -/
def beginPolling (s : State) : State := { s with session := { s.session with alloc := .polling } }

/-- ApplyInit() (R342). -/
def applyInit (now : Nat) (s : State) : State :=
  let s := releaseSession s
  match s.params.candidatesFor s.cfg.devType with
  | [] => allocFail s
  | c :: _ => armPoll now c (beginPolling s)

/-- `rise`: `t_free <- now` (`40_line_interface.md` R155). -/
def stampFree (p : Sample) (s : State) : State :=
  if p.rise then { s with time := { s.time with tFree := p.now } } else s

/-- The epilogue of a TICK: `if valid: last_line <- line_in; t_last <- now` (`41_bit_timing.md` R170). -/
def epilogue (p : Sample) (s : State) : State :=
  { s with
    line := { s.line with lastLine := if p.valid then p.lineIn else s.line.lastLine }
    time := { s.time with tLast := p.now } }

/-- RESET(now0) (`70_reset_and_hazards.md` R420): every register of `10_state.md`. The parameters and the transfers
waiting on the ports are no registers and stay. -/
def resetRegs (now0 : Nat) (s : State) : State :=
  { s with
    cfg := { phys := 0xFFFF, devType := 0xFF, prom := false }
    session := { alloc := .uninit, la := 0xF, candIdx := 0 }
    seq := { st := .idle, ph := .driveLowEdge, role := .none, bitIdx := 0, blk := 0 }
    line := { driveLow := false, tDrive := now0, lastLine := false }
    time := { tFall := now0, tFree := now0, tLast := now0, tAttempt := now0 }
    rx := { shift := 0, eom := false, buf := List.replicate s.params.maxFrame 0, ack := clearAcks s.params,
            len := 0, ackMe := false }
    tx := { buf := List.replicate s.params.maxFrame 0, len := 0, ack := clearAcks s.params, pending := false,
            kind := .host, attempt := 0, sft := s.params.sftBase, outcome := .none, postSuccess := false }
    pinit := { valid := false, phys := 0, devType := 0, prom := false } }

end Sys2Proof.Machine
end

