-- ==== Sys2Proof/Machine/Command.lean ====
section
/-! DEFINITION. The host commands of `44_host_interface.md` (R340 to R345). A command writes no `t_last`, drives
nothing and emits no event (R340). -/

namespace Sys2Proof.Machine

/-- INIT(phys, type, prom) (R341). -/
def execInit (phys : BitVec 16) (devType : BitVec 8) (prom : Bool) (s : State) :
    Host.Outcome State Fault Refusal :=
  .next (respond .accepted
    { clearPorts s with pinit := { valid := true, phys := phys, devType := devType, prom := prom } })

/-- An accepted TRANSMIT arms its frame (R343, `30_encoding.md` R123). A frame of more than 31 bytes, which `00_scope.md` R9
excludes, leaves its length modulo 32: DESIGN CHOICE, log entry 21. -/
def armHost (dest : LogAddr) (payload : List Byte) (s : State) : State :=
  { s with
    tx := { s.tx with
      buf := storeFrame (headerByte s.session.la dest :: payload) s.tx.buf
      len := BitVec.ofNat 5 (payload.length + 1), kind := .host, pending := true, attempt := 0
      sft := armedSft s.params s.tx.postSuccess, ack := clearAcks s.params }
    time := { s.time with tAttempt := s.time.tLast } }

/-- TRANSMIT(dest, payload) (R343): the three rejections in the order shown there, or the frame is armed. With
`MAX_FRAME = 0`, which `00_scope.md` R9 excludes, `MAX_FRAME - 1` is 0, so that an empty payload is accepted: DESIGN CHOICE,
log entry 21. -/
def execTransmit (dest : LogAddr) (payload : List Byte) (s : State) : Host.Outcome State Fault Refusal :=
  let s := clearPorts s
  if s.session.alloc ≠ .claimed then .next (respond .rejectNotReady s)
  else if s.tx.pending = true ∨ s.pinit.valid = true then .next (respond .rejectBusy s)
  else if s.params.maxFrame - 1 < payload.length then .next (respond .rejectLength s)
  else .next (respond .accepted (armHost dest payload s))

/-- GET_LA() (R344). -/
def execGetLa (s : State) : Host.Outcome State Fault Refusal :=
  .next (respond (.logAddr s.session.la) (clearPorts s))

/-- GET_STATUS() (R345). -/
def execGetStatus (s : State) : Host.Outcome State Fault Refusal :=
  .next (respond (.status (statusOf s)) (clearPorts s))

/-- A reserved command code spells no command: "A model refuses it: the step is not admitted and the state does not
change" (`30_encoding.md` R120). -/
def execReservedCmd (code : BitVec 4) (_ : State) : Host.Outcome State Fault Refusal :=
  .refused (.reservedCommand code)

end Sys2Proof.Machine
end

