-- ==== Sys2Proof/Machine/Line.lean ====
section
/-! DEFINITION. The two line primitives as operations on their own (`40_line_interface.md` R151, R152). In a run of
the core only TICK performs them (`30_encoding.md` R124). -/

namespace Sys2Proof.Machine

/-- READ (R151): returns the sensed level, writes no register. -/
def execRead (lineIn : Bool) (s : State) : Host.Outcome State Fault Refusal :=
  .next (respond (.level lineIn) (clearPorts s))

/-- DRIVE(v) through SetDrive (R152). It has no time operand: the drive changes at `t_last`, the time of the last TICK
or RESET, as every rule outside a TICK that needs a time takes it (R340). DESIGN CHOICE, log entry 7. -/
def execDrive (v : Bool) (s : State) : Host.Outcome State Fault Refusal :=
  .next (setDrive s.time.tLast v (clearPorts s))

end Sys2Proof.Machine
end

