-- ==== Sys2Proof/Machine/Handlers.lean ====
section
/-! DEFINITION. The handlers of the bus timing state machine, one definition per handler rule of
`41_bit_timing.md` (R173 to R190), and their selection (R172, R193). -/

namespace Sys2Proof.Machine

/-- R173: the IDLE handler. -/
def handleIdle (p : Sample) (s : State) : State :=
  if p.fall then enterAwaitStart p.now s
  else if s.tx.pending && waitedOut p.now s then attemptEnd p.now .timeout s
  else if s.tx.pending && busFree p s then
    startBit p.now .sendStart
      { s with
        seq := { s.seq with role := .tx, blk := 0, bitIdx := 0 }
        rx := { s.rx with shift := 0 }
        tx := { s.tx with ack := clearAcks s.params } }
  else s

/-- R174: the INTERFRAME_GAP handler. -/
def handleGap (p : Sample) (s : State) : State :=
  if p.fall then enterAwaitStart p.now s
  else if s.params.bitNom ≤ p.el then goTo .idle .none s
  else s

/-- R175: AWAIT_START, DRIVE_LOW_EDGE. -/
def handleAwaitLow (p : Sample) (s : State) : State :=
  if p.rise then
    if inBand s.params.startLowMin p.el s.params.startLowMax then setPhase .fullBitWait s else rxError p.now s
  else if s.params.startLowMax < p.el then rxError p.now s
  else s

/-- R176: AWAIT_START, FULL_BIT_WAIT. -/
def handleAwaitTotal (p : Sample) (s : State) : State :=
  if p.fall then
    if inBand s.params.startTotalMin p.el s.params.startTotalMax then
      clearRxRecord
        { s with
          seq := { s.seq with st := .bitPeriod, ph := .driveLowEdge, blk := 0, bitIdx := 0 }
          time := { s.time with tFall := p.now }
          rx := { s.rx with shift := 0 } }
    else rxError p.now s
  else if s.params.startTotalMax < p.el then rxError p.now s
  else s

/-- R177: SEND_START, DRIVE_LOW_EDGE and SAMPLE_RELEASE. -/
def handleSendStart (p : Sample) (s : State) : State :=
  if s.seq.ph = .driveLowEdge then
    if s.params.startLowNom ≤ p.el then setPhase .sampleRelease (setDrive p.now false s) else s
  else if p.valid then
    if p.lineIn then setPhase .fullBitWait s
    else attemptEnd p.now .arbLost (goTo .idle .none (setDrive p.now false s))
  else s

/-- R178: SEND_START, FULL_BIT_WAIT. -/
def handleSendStartEnd (p : Sample) (s : State) : State :=
  if s.params.startTotalNom ≤ p.el then startBit p.now .bitPeriod s else s

/-- R180: BIT_PERIOD (TX), DRIVE_LOW_EDGE. -/
def handleTxBitLow (p : Sample) (s : State) : State :=
  if (if txBit s.seq s.tx then s.params.oneLowNom else s.params.zeroLowNom) ≤ p.el then
    setPhase .sampleRelease (setDrive p.now false s)
  else s

/-- R181: BIT_PERIOD (TX), SAMPLE_RELEASE. -/
def handleTxBitSample (p : Sample) (s : State) : State :=
  let b := txBit s.seq s.tx
  if s.params.tSample ≤ p.el ∧ p.valid = true then
    if b && !p.lineIn then
      if s.seq.blk = 0 ∧ s.seq.bitIdx.toNat ≤ 3 then
        attemptEnd p.now .arbLost
          (clearRxRecord { s with seq := { s.seq with role := .rx, ph := .driveLowEdge } })
      else attemptEnd p.now .busError (goTo .idle .none s)
    else
      setPhase .fullBitWait
        (if s.seq.bitIdx.toNat ≤ 7 then { s with rx := { s.rx with shift := shiftIn s.rx.shift b } }
         else { s with rx := { s.rx with eom := b } })
  else s

/-- R182: BIT_PERIOD (TX), FULL_BIT_WAIT. -/
def handleTxBitEnd (p : Sample) (s : State) : State :=
  if s.params.bitNom ≤ p.el then
    let idx := s.seq.bitIdx + 1
    startBit p.now (if idx = 9 then .ackWindow else .bitPeriod) { s with seq := { s.seq with bitIdx := idx } }
  else s

/-- R183: ACK_WINDOW (TX), DRIVE_LOW_EDGE. -/
def handleTxAckLow (p : Sample) (s : State) : State :=
  if s.params.oneLowNom ≤ p.el then setPhase .sampleRelease (setDrive p.now false s) else s

/-- R184: ACK_WINDOW (TX), SAMPLE_RELEASE. -/
def handleTxAckSample (p : Sample) (s : State) : State :=
  if s.params.tSample ≤ p.el ∧ p.valid = true then
    let ack := ackOf (directed (txHeader s.tx)) p.lineIn
    let s := { s with tx := { s.tx with ack := s.tx.ack.set s.seq.blk.toNat ack } }
    if !ack then attemptEnd p.now .nak (goTo .idle .none s)
    else if lastBlock s.seq s.tx then attemptEnd p.now .success (goTo .interframeGap s.seq.role s)
    else setPhase .fullBitWait s
  else s

/-- R185: ACK_WINDOW (TX), FULL_BIT_WAIT. -/
def handleTxAckEnd (p : Sample) (s : State) : State :=
  if s.params.bitNom ≤ p.el then
    startBit p.now .bitPeriod { s with seq := { s.seq with blk := s.seq.blk + 1, bitIdx := 0 } }
  else s

/-- R187, the bit decoded: a data bit is shifted in, the last one stores the byte (`42_framer.md` R254) and decides
`ack_me` in block 0 (R256); bit 8 is EOM (R255). -/
def recordRxBit (v : Bool) (s : State) : State :=
  if s.seq.bitIdx.toNat ≤ 7 then
    let byte := shiftIn s.rx.shift v
    let s := { s with rx := { s.rx with shift := byte } }
    if s.seq.bitIdx = 7 then
      { s with rx := { s.rx with
          buf := s.rx.buf.set s.seq.blk.toNat byte
          ackMe := if s.seq.blk = 0 then ackMe s.session byte else s.rx.ackMe } }
    else s
  else { s with rx := { s.rx with eom := v } }

/-- R187: BIT_PERIOD (RX), DRIVE_LOW_EDGE. -/
def handleRxBitLow (p : Sample) (s : State) : State :=
  if p.rise then
    match classify s.params p.el with
    | none => rxError p.now s
    | some v => setPhase .fullBitWait (recordRxBit v s)
  else if s.params.zeroLowMax < p.el then rxError p.now s
  else s

/-- R188: BIT_PERIOD (RX), FULL_BIT_WAIT. -/
def handleRxBitEnd (p : Sample) (s : State) : State :=
  if p.fall then
    if inBand s.params.bitMin p.el s.params.bitMax then
      let idx := s.seq.bitIdx + 1
      let s := { s with
        time := { s.time with tFall := p.now }
        seq := { s.seq with ph := .driveLowEdge, bitIdx := idx } }
      if idx = 9 then
        let s := { s with seq := { s.seq with st := .ackWindow } }
        if s.rx.ackMe then setDrive p.now true s else s
      else s
    else rxError p.now s
  else if s.params.bitMax < p.el then rxError p.now s
  else s

/-- R189, the slot decoded with the ack `ack`: record it, and end the frame, abandon it, abort it or go on
(`42_framer.md` R255, R259, R260, R261). R189 records before it decides, so an overflow leaves the last block's ack and
`rx_len` recorded, where `60_exceptions.md` R383 says that an abort changes nothing else; no ruling settles the two, and the
model follows R189 (DEDUCED, log entry 19). -/
def recordRxAck (now : Nat) (ack : Bool) (s : State) : State :=
  let s := { s with rx := { s.rx with
    ack := s.rx.ack.set s.seq.blk.toNat ack, len := s.seq.blk.zeroExtend 5 + 1 } }
  if s.rx.eom then
    let s := goTo .interframeGap s.seq.role s
    if wanted s.cfg s.session (rxHeader s.rx) then
      emit (.rxComplete (rxBytes s.rx) (rxAcks s.rx) (frameAck (rxAcks s.rx))) s
    else s
  else if !ack then goTo .idle .none s
  else if s.params.maxFrame ≤ s.seq.blk.toNat + 1 then rxError now s
  else setPhase .fullBitWait s

/-- R189: ACK_WINDOW (RX), DRIVE_LOW_EDGE. -/
def handleRxAckLow (p : Sample) (s : State) : State :=
  if s.line.driveLow = true ∧ s.params.tAckLow ≤ p.el then setDrive p.now false s
  else if p.rise then
    match classify s.params p.el with
    | none => rxError p.now s
    | some v => recordRxAck p.now (ackOf (directed (rxHeader s.rx)) v) s
  else if s.line.driveLow = false ∧ s.params.zeroLowMax < p.el then rxError p.now s
  else s

/-- R190: ACK_WINDOW (RX), FULL_BIT_WAIT. -/
def handleRxAckEnd (p : Sample) (s : State) : State :=
  if p.fall then
    if inBand s.params.bitMin p.el s.params.bitMax then
      { s with
        seq := { s.seq with st := .bitPeriod, blk := s.seq.blk + 1, bitIdx := 0, ph := .driveLowEdge }
        time := { s.time with tFall := p.now }
        rx := { s.rx with shift := 0 } }
    else rxError p.now s
  else if s.params.bitMax < p.el then rxError p.now s
  else s

/-- The handlers R172 selects from, by what they do; `none` stands for R193's "no handler runs". -/
inductive Handler where
  | none
  | idle
  | gap
  | awaitLow
  | awaitTotal
  | sendStart
  | sendStartEnd
  | txBitLow
  | txBitSample
  | txBitEnd
  | txAckLow
  | txAckSample
  | txAckEnd
  | rxBitLow
  | rxBitEnd
  | rxAckLow
  | rxAckEnd
deriving DecidableEq, Repr

/-- The table of R172; every other combination is R193's. -/
def selectHandler (st : EngineState) (role : Role) (ph : Phase) : Handler :=
  match st, role, ph with
  | .idle, _, _ => .idle
  | .interframeGap, _, _ => .gap
  | .awaitStart, _, .driveLowEdge => .awaitLow
  | .awaitStart, _, .fullBitWait => .awaitTotal
  | .sendStart, _, .driveLowEdge => .sendStart
  | .sendStart, _, .sampleRelease => .sendStart
  | .sendStart, _, .fullBitWait => .sendStartEnd
  | .bitPeriod, .tx, .driveLowEdge => .txBitLow
  | .bitPeriod, .tx, .sampleRelease => .txBitSample
  | .bitPeriod, .tx, .fullBitWait => .txBitEnd
  | .ackWindow, .tx, .driveLowEdge => .txAckLow
  | .ackWindow, .tx, .sampleRelease => .txAckSample
  | .ackWindow, .tx, .fullBitWait => .txAckEnd
  | .bitPeriod, .rx, .driveLowEdge => .rxBitLow
  | .bitPeriod, .rx, .fullBitWait => .rxBitEnd
  | .ackWindow, .rx, .driveLowEdge => .rxAckLow
  | .ackWindow, .rx, .fullBitWait => .rxAckEnd
  | _, _, _ => .none

/-- Run one handler. -/
def runHandler (h : Handler) (p : Sample) (s : State) : State :=
  match h with
  | .none => s
  | .idle => handleIdle p s
  | .gap => handleGap p s
  | .awaitLow => handleAwaitLow p s
  | .awaitTotal => handleAwaitTotal p s
  | .sendStart => handleSendStart p s
  | .sendStartEnd => handleSendStartEnd p s
  | .txBitLow => handleTxBitLow p s
  | .txBitSample => handleTxBitSample p s
  | .txBitEnd => handleTxBitEnd p s
  | .txAckLow => handleTxAckLow p s
  | .txAckSample => handleTxAckSample p s
  | .txAckEnd => handleTxAckEnd p s
  | .rxBitLow => handleRxBitLow p s
  | .rxBitEnd => handleRxBitEnd p s
  | .rxAckLow => handleRxAckLow p s
  | .rxAckEnd => handleRxAckEnd p s

/-- The state is one in which R193 lets no handler run: a combination outside R172's table, a code no rule writes, or a
combination that breaks an invariant of `10_state.md` R44 (log entry 8). -/
def stuck (s : State) : Bool :=
  !legal s || selectHandler s.seq.st s.seq.role s.seq.ph == .none

end Sys2Proof.Machine
end

