-- ==== Sys2Proof/Machine/Tick.lean ====
section
/-! DEFINITION. The steps TICK (`41_bit_timing.md` R170) and RESET (`70_reset_and_hazards.md` R420). -/

namespace Sys2Proof.Machine

/-- A TICK after its ApplyInit: sampling, the one handler R172 selects, the epilogue (R170). -/
def serveTick (now : Nat) (lineIn : Bool) (s : State) : State :=
  let p := sampleOf now lineIn s
  epilogue p (runHandler (selectHandler s.seq.st s.seq.role s.seq.ph) p (stampFree p s))

/-- The effect of an admitted TICK, its events appended to the state's. Where R193 lets no handler run, a TICK does
only its sampling and epilogue. -/
def tickAt (now : Nat) (lineIn : Bool) (s : State) : State :=
  if stuck s then
    let p := sampleOf now lineIn s
    epilogue p (stampFree p s)
  else serveTick now lineIn (if initDue s then applyInit now s else s)

/-- TICK(now, line_in) (R170): refused where `now <= t_last`, and otherwise the effect above on cleared ports. -/
def execTick (now : Nat) (lineIn : Bool) (s : State) : Host.Outcome State Fault Refusal :=
  if now ≤ s.time.tLast then .refused (.staleTick now s.time.tLast)
  else .next (tickAt now lineIn (clearPorts s))

/-- RESET(now0) (R420): always admitted, emits nothing. -/
def execReset (now0 : Nat) (s : State) : Host.Outcome State Fault Refusal :=
  .next (resetRegs now0 (clearPorts s))

end Sys2Proof.Machine
end

