-- ==== Sys2Proof/Machine/Wire.lean ====
section
/-! DEFINITION. The wire rows (`30_encoding.md` R110 to R116) as what happens to the core when the other participants
put that symbol, block or frame on the line: a run of TICKs whose `line_in` is the wired-AND of their waveform and this
core's own drive (`40_line_interface.md` R156). The core has no other way to meet a wire symbol: it receives it, sends
against it or ignores it as the handlers of `41_bit_timing.md` say. DESIGN CHOICE, log entry 6. -/

namespace Sys2Proof.Machine

/-- `n` TICKs, `gap` apart, on a line whose other participants leave the level `wave t` at time `t`. Each read uses the
core's drive from the step before (R156). -/
def runTicks (wave : Nat → Bool) (gap : Nat) : Nat → State → State
  | 0, s => s
  | n + 1, s =>
    let now := s.time.tLast + gap
    runTicks wave gap n (tickAt now (wave now && !s.line.driveLow) s)

/-- How many TICKs, `gap` apart from `tLast` on, come before time `stop`. -/
def ticksBefore (tLast gap stop : Nat) : Nat := (stop - 1 - tLast) / gap

/-- The others put `pulses` on the line from `sch.fall` on: the TICKs up to the end of the last period. -/
def onWire (sch : Sched) (pulses : List Pulse) (s : State) : State :=
  runTicks (levelAt pulses sch.fall) sch.gap (ticksBefore s.time.tLast sch.gap (sch.fall + totalPeriod pulses))
    (clearPorts s)

/-- START (R110). -/
def execStart (sch : Sched) (low period : Nat) (s : State) : Host.Outcome State Fault Refusal :=
  .next (onWire sch [⟨low, period⟩] s)

/-- DATA0 (R110). -/
def execData0 (sch : Sched) (low period : Nat) (s : State) : Host.Outcome State Fault Refusal :=
  .next (onWire sch [⟨low, period⟩] s)

/-- DATA1 (R110). -/
def execData1 (sch : Sched) (low period : Nat) (s : State) : Host.Outcome State Fault Refusal :=
  .next (onWire sch [⟨low, period⟩] s)

/-- BLOCK `ddddddddea` (R111), nominal symbols. -/
def execBlock (sch : Sched) (d : Byte) (e a : Bool) (s : State) : Host.Outcome State Fault Refusal :=
  .next (onWire sch (blockPulses s.params d e a) s)

/-- The EOM bit (R114). -/
def execEom (sch : Sched) (e : Bool) (s : State) : Host.Outcome State Fault Refusal :=
  .next (onWire sch [bitPulse s.params e] s)

/-- The ACK slot (R115). -/
def execAckSlot (sch : Sched) (a : Bool) (s : State) : Host.Outcome State Fault Refusal :=
  .next (onWire sch [ackPulse s.params a] s)

/-- The header byte `ssssdddd` (R113), D7 first. -/
def execHeader (sch : Sched) (src dst : LogAddr) (s : State) : Host.Outcome State Fault Refusal :=
  .next (onWire sch (bytePulses s.params (headerByte src dst)) s)

/-- A frame (R112). -/
def execFrame (sch : Sched) (blocks : List (Byte × Bool)) (s : State) : Host.Outcome State Fault Refusal :=
  .next (onWire sch (framePulses s.params blocks) s)

/-- A polling frame: the one-byte frame `[(c << 4) | c]` (R116). -/
def execPoll (sch : Sched) (c : LogAddr) (a : Bool) (s : State) : Host.Outcome State Fault Refusal :=
  .next (onWire sch (framePulses s.params [(headerByte c c, a)]) s)

end Sys2Proof.Machine
end

