-- ==== Sys2Proof/Machine/Dispatch.lean ====
section
/-! DEFINITION. The meaning of every row of `spec/opcode_table.json`: one arm per constructor of `Instr`. -/

namespace Sys2Proof.Machine

def exec (i : Instr) (s : State) : Host.Outcome State Fault Refusal :=
  match i with
  | .init phys devType prom => Sys2Proof.Machine.execInit phys devType prom s
  | .transmit dest payload => Sys2Proof.Machine.execTransmit dest payload s
  | .getLa => Sys2Proof.Machine.execGetLa s
  | .getStatus => Sys2Proof.Machine.execGetStatus s
  | .reservedCmd code => Sys2Proof.Machine.execReservedCmd code s
  | .reset now0 => Sys2Proof.Machine.execReset now0 s
  | .tick now lineIn => Sys2Proof.Machine.execTick now lineIn s
  | .read lineIn => Sys2Proof.Machine.execRead lineIn s
  | .drive v => Sys2Proof.Machine.execDrive v s
  | .start sch low period => Sys2Proof.Machine.execStart sch low period s
  | .data0 sch low period => Sys2Proof.Machine.execData0 sch low period s
  | .data1 sch low period => Sys2Proof.Machine.execData1 sch low period s
  | .block sch d e a => Sys2Proof.Machine.execBlock sch d e a s
  | .eom sch e => Sys2Proof.Machine.execEom sch e s
  | .ackSlot sch a => Sys2Proof.Machine.execAckSlot sch a s
  | .header sch src dst => Sys2Proof.Machine.execHeader sch src dst s
  | .frame sch blocks => Sys2Proof.Machine.execFrame sch blocks s
  | .poll sch c a => Sys2Proof.Machine.execPoll sch c a s

end Sys2Proof.Machine
end

