-- ==== Sys2Proof/Machine/Step.lean ====
section
/-! DEFINITION. One step of the host's run: take the next transfer off the ports, decode it, run it. -/

namespace Sys2Proof.Machine

/-- Take the first transfer presented and run its instruction. With nothing presented the core does nothing
(`60_exceptions.md` R394: "It acts only when stepped") and its output ports are empty; a transfer that spells no
instruction is refused by name (log entries 3 and 4). -/
def step (s : State) : Host.Outcome State Fault Refusal :=
  match s.input with
  | [] => .next (clearPorts s)
  | inp :: rest =>
    match decode inp with
    | .ok i => exec i { s with input := rest }
    | .error e => .refused (.undecodable e)

/-- The state with a word of the opcode table presented first. -/
def State.withFetchWord (s : State) (nbits w : Nat) : State :=
  { s with input := tableInput nbits w :: s.input }

end Sys2Proof.Machine
end

