-- ==== Sys2Proof/Machine/Framer.lean ====
section
/-! DEFINITION. The framer's pure functions: `encode` (`42_framer.md` R250) and `assemble` (R252). The handlers carry
them out one bit per bit period. -/

namespace Sys2Proof.Machine

/-- A decoded wire symbol (R252). -/
inductive WireSymbol where
  | start
  | bit (v : Bool)
deriving DecidableEq, Repr

/-- `block(i)` of R250: the data bits, EOM, and the ACK slot as the initiator sends it. -/
def frameBlock (d : Byte) (last : Bool) : List WireSymbol :=
  (byteBits d).map .bit ++ [.bit last, .bit true]

/-- The blocks of R250, EOM = 1 in the last one only. -/
def frameBlocks : List Byte → List WireSymbol
  | [] => []
  | d :: rest => frameBlock d rest.isEmpty ++ frameBlocks rest

/-- encode(frame) (R250). -/
def frameSymbols (frame : List Byte) : List WireSymbol := .start :: frameBlocks frame

/-- What assemble yields (R252). -/
inductive Assembled where
  | frame (bytes : List Byte) (acks : List Bool)
  | partialError
deriving DecidableEq, Repr

/-- Eight bits as a byte, the first one the most significant (R252, R85). -/
def bitsByte (bits : List Bool) : Byte := bits.foldl shiftIn 0

/-- The loop of assemble (R252), over the symbols after the START. -/
def assembleLoop (maxFrame : Nat) (bytes : List Byte) (acks : List Bool) : List WireSymbol → Assembled
  | .bit d7 :: .bit d6 :: .bit d5 :: .bit d4 :: .bit d3 :: .bit d2 :: .bit d1 :: .bit d0 :: .bit e :: .bit a :: rest =>
    let bytes' := bytes ++ [bitsByte [d7, d6, d5, d4, d3, d2, d1, d0]]
    let k := ackOf (directed (bytes'.getD 0 0)) a
    let acks' := acks ++ [k]
    if e then .frame bytes' acks'
    else if !k then .partialError
    else if maxFrame ≤ bytes'.length then .partialError
    else assembleLoop maxFrame bytes' acks' rest
  | _ => .partialError

/-- assemble(stream) (R252). -/
def assemble (maxFrame : Nat) : List WireSymbol → Assembled
  | .start :: rest => assembleLoop maxFrame [] [] rest
  | _ => .partialError

end Sys2Proof.Machine
end

