-- ==== Sys2Proof/Safety.lean ====
section
/-! DEFINITION. What counts as a safe run, in the terms the statements use: the invariants of `10_state.md` R44 (their
parts stand in `Machine/Flags.lean`) with the model's own additions that make them inductive, the environment's duty
(`40_line_interface.md` R156), and what a TICK and a run of TICKs leave. -/

namespace Sys2Proof.Machine

/-- The sequencer stands in R172's table, and its counters in the ranges R35 gives them (`bit_idx` 0..9, `blk` below
`MAX_FRAME`): a block is open (`bit_idx <= 8`) in BIT_PERIOD, nothing is counted in SEND_START, and a block that waits
for its next one is not the last (`41_bit_timing.md` R185, R190). -/
abbrev TableOk (s : State) : Prop :=
  selectHandler s.seq.st s.seq.role s.seq.ph ≠ .none ∧ s.seq.bitIdx.toNat ≤ 9 ∧
  s.seq.blk.toNat < s.params.maxFrame ∧
  (s.seq.st = .bitPeriod → s.seq.bitIdx.toNat ≤ 8) ∧
  (s.seq.st = .sendStart → s.seq.bitIdx = 0 ∧ s.seq.blk = 0) ∧
  (s.seq.role = .tx → s.seq.st ≠ .interframeGap → s.seq.blk.toNat < s.tx.len.toNat) ∧
  (s.seq.st = .ackWindow → s.seq.ph = .fullBitWait → s.seq.role = .tx → s.seq.blk.toNat + 1 < s.tx.len.toNat) ∧
  (s.seq.st = .ackWindow → s.seq.ph = .fullBitWait → s.seq.role = .rx → s.seq.blk.toNat + 1 < s.params.maxFrame)

/-- The buffers have `MAX_FRAME` entries (R38, R39). -/
abbrev BuffersOk (s : State) : Prop :=
  s.rx.buf.length = s.params.maxFrame ∧ s.rx.ack.length = s.params.maxFrame ∧
  s.tx.buf.length = s.params.maxFrame ∧ s.tx.ack.length = s.params.maxFrame

/-- No timestamp lies after the last TICK or RESET (`41_bit_timing.md` R199). -/
abbrev StampsOk (s : State) : Prop :=
  s.time.tFall ≤ s.time.tLast ∧ s.time.tFree ≤ s.time.tLast ∧ s.time.tAttempt ≤ s.time.tLast ∧
  s.line.tDrive ≤ s.time.tLast

/-- While the core sends, a transmission is pending (R298); a pending poll polls the candidate `cand_idx` points at,
which lies inside the list (R302, `41_bit_timing.md` R199); a pending host frame has a claimed address to send from
(`44_host_interface.md` R343, R353). -/
abbrev SendingOk (s : State) : Prop :=
  (s.seq.role = .tx → s.seq.st ≠ .interframeGap → s.tx.pending = true) ∧
  (s.tx.kind = .poll → s.tx.pending = true →
    (s.params.candidatesFor s.cfg.devType)[s.session.candIdx.toNat]? = some (lowNibble (txHeader s.tx))) ∧
  (s.tx.kind = .host → s.tx.pending = true → s.session.alloc = .claimed)

/-- `la` is 15 while no address is claimed (`10_state.md` R34, `44_host_interface.md` R344). -/
abbrev AddressOk (s : State) : Prop := s.session.alloc ≠ .claimed → s.session.la = 15

/-- The counters' bounds (`41_bit_timing.md` R199, `10_state.md` R38, R39, `43_arbiter.md` R291): `cand_idx` at most the
list's length, both frame lengths at most `MAX_FRAME`, `tx_attempt` at most `MAX_ATTEMPTS`, and `tx_sft` one of the waits
R291 can give. -/
abbrev CountersOk (s : State) : Prop :=
  s.session.candIdx.toNat ≤ (s.params.candidatesFor s.cfg.devType).length ∧
  s.rx.len.toNat ≤ s.params.maxFrame ∧ s.tx.len.toNat ≤ s.params.maxFrame ∧
  s.tx.attempt ≤ s.params.maxAttempts ∧
  (s.tx.sft = s.params.sftAfterSuccess ∨
    (s.params.sftBase ≤ s.tx.sft ∧ s.tx.sft ≤ s.params.sftBase + (s.params.maxAttempts - 1) * s.params.sftStep))

/-- The invariants of R44 (items 1 to 7). -/
structure Invariants (s : State) : Prop where
  seq : SeqOk s.seq
  drive : DriveOk s
  pending : PendingOk s
  session : SessionOk s

/-- The model's inductive invariant: R44's with the parameters' constraints (R9), the ranges of R35 to R39 and the
facts the rules keep beside them. -/
structure RunInvariant (s : State) : Prop extends Invariants s where
  params : s.params.Wf
  codes : CodesOk s
  table : TableOk s
  buffers : BuffersOk s
  stamps : StampsOk s
  sending : SendingOk s
  address : AddressOk s
  counters : CountersOk s

/-- The environment's duty for one instruction: a TICK's level obeys the wired-AND (`40_line_interface.md` R156), and
no DRIVE is given from outside (`30_encoding.md` R124). The wire rows compute a wired-AND themselves. -/
abbrev EnvOk (s : State) (i : Instr) : Prop :=
  match i with
  | .tick _ lineIn => lineIn = true → s.line.driveLow = false
  | .drive _ => False
  | _ => True

/-- The environment's duty for the transfer presented next. -/
abbrev NextInputOk (s : State) : Prop :=
  ∀ inp ∈ s.input.head?, ∀ i, decode inp = .ok i → EnvOk s i

/-! ### The terms of a TICK's statements -/

/-- The read of a TICK at `now` is valid (`40_line_interface.md` R153). -/
abbrev ValidRead (now : Nat) (s : State) : Prop := s.params.tSettle ≤ now - s.line.tDrive

/-- The TICK sees a falling edge (R154). -/
abbrev FallSeen (now : Nat) (lineIn : Bool) (s : State) : Prop :=
  ValidRead now s ∧ s.line.lastLine = true ∧ lineIn = false

/-- The TICK sees a rising edge (R154). -/
abbrev RiseSeen (now : Nat) (lineIn : Bool) (s : State) : Prop :=
  ValidRead now s ∧ s.line.lastLine = false ∧ lineIn = true

/-- The line registers after the epilogue's `if valid: last_line <- line_in` (R154). -/
def sampledLine (now : Nat) (lineIn : Bool) (s : State) : LineRegs :=
  { s.line with lastLine := if ValidRead now s then lineIn else s.line.lastLine }

/-- The timestamps after `if rise: t_free <- now` (R155) and the epilogue's `t_last <- now` (R170). -/
def sampledTime (now : Nat) (lineIn : Bool) (s : State) : TimeRegs :=
  { s.time with tFree := if RiseSeen now lineIn s then now else s.time.tFree, tLast := now }

/-- The state after a TICK that does only its sampling and epilogue, with an empty event list (R170, R193). -/
def sampled (now : Nat) (lineIn : Bool) (s : State) : State :=
  { s with line := sampledLine now lineIn s, time := sampledTime now lineIn s, events := [], response := none }

/-- Line registers after `SetDrive(v)` at `now` (`40_line_interface.md` R152). -/
def driven (now : Nat) (v : Bool) (r : LineRegs) : LineRegs :=
  if v = r.driveLow then r else { r with driveLow := v, tDrive := now }

/-- Elapsed time (`41_bit_timing.md` R171). -/
abbrev elapsed (now : Nat) (s : State) : Nat := now - s.time.tFall

/-- The state after a receive abort (`60_exceptions.md` R383): the drive is released, the sequencer is in IDLE, and the
rest is the TICK's sampling and epilogue. -/
def abortedRx (now : Nat) (lineIn : Bool) (s : State) : State :=
  { sampled now lineIn s with
    line := driven now false (sampledLine now lineIn s)
    seq := { s.seq with st := .idle, role := .none, ph := .driveLowEdge } }

/-- The IDLE handler's three branches in their order, at a TICK with no INIT due (`41_bit_timing.md` R173). -/
def idleNext (now : Nat) (lineIn : Bool) (s : State) : State :=
  if FallSeen now lineIn s then
    { sampled now lineIn s with
      seq := { s.seq with st := .awaitStart, role := .rx, ph := .driveLowEdge }
      time := { sampledTime now lineIn s with tFall := now }
      tx := { s.tx with postSuccess := false } }
  else if s.tx.pending = true ∧ now - s.time.tAttempt ≥ s.params.tWaitFreeMax then
    attemptEnd now .timeout (sampled now lineIn s)
  else if s.tx.pending = true ∧ ValidRead now s ∧ lineIn = true ∧
      now - (sampledTime now lineIn s).tFree ≥ s.tx.sft * s.params.bitNom then
    { sampled now lineIn s with
      seq := { st := .sendStart, ph := .driveLowEdge, role := .tx, bitIdx := 0, blk := 0 }
      line := driven now true (sampledLine now lineIn s)
      time := { sampledTime now lineIn s with tFall := now }
      rx := { s.rx with shift := 0 }
      tx := { s.tx with ack := List.replicate s.params.maxFrame false } }
  else sampled now lineIn s

/-- The receive datapath once bit `bit_idx` of the open block is decoded as `v` (`41_bit_timing.md` R187): a data bit is
shifted in, D0 stores the byte and in block 0 decides `ack_me` (`42_framer.md` R254, R256), and bit 8 is EOM. -/
def decodedBit (g : SessionRegs) (q : SeqRegs) (v : Bool) (r : RxRegs) : RxRegs :=
  let byte := shiftIn r.shift v
  if q.bitIdx.toNat < 7 then { r with shift := byte }
  else if q.bitIdx.toNat = 7 then
    { r with
      shift := byte, buf := r.buf.set q.blk.toNat byte
      ackMe := if q.blk = 0 then
          decide (g.alloc = .claimed ∧ headerDst byte = g.la ∧ headerDst byte ≠ 15)
        else r.ackMe }
  else { r with eom := v }

/-- The bit a receiver waits for: the elapsed times at which its falling edge is taken, and the sequencer and receive
datapath with which it is then decoded. It is the first bit after the start bit (`41_bit_timing.md` R176), the next data
or EOM bit of a block (R188), or the first bit of the next block (R190). -/
inductive NextRxBit (s : State) : Nat → Nat → SeqRegs → RxRegs → Prop where
  | afterStart (st : s.seq.st = .awaitStart) (ph : s.seq.ph = .fullBitWait) :
      NextRxBit s s.params.startTotalMin s.params.startTotalMax ⟨.bitPeriod, .fullBitWait, .rx, 0, 0⟩
        { s.rx with shift := 0, len := 0, ackMe := false, ack := List.replicate s.params.maxFrame false }
  | inBlock (st : s.seq.st = .bitPeriod) (role : s.seq.role = .rx) (ph : s.seq.ph = .fullBitWait)
      (more : s.seq.bitIdx.toNat ≤ 7) :
      NextRxBit s s.params.bitMin s.params.bitMax
        ⟨.bitPeriod, .fullBitWait, .rx, s.seq.bitIdx + 1, s.seq.blk⟩ s.rx
  | nextBlock (st : s.seq.st = .ackWindow) (role : s.seq.role = .rx) (ph : s.seq.ph = .fullBitWait) :
      NextRxBit s s.params.bitMin s.params.bitMax ⟨.bitPeriod, .fullBitWait, .rx, 0, s.seq.blk + 1⟩
        { s.rx with shift := 0 }

/-- The wire rows that put one data or EOM bit `v` on the line, with their low time and period (`30_encoding.md` R110,
R114). -/
inductive BitRow (c : Config) (v : Bool) (sch : Sched) : Instr → Nat → Nat → Prop where
  | data1 (one : v = true) (low period : Nat) : BitRow c v sch (.data1 sch low period) low period
  | data0 (zero : v = false) (low period : Nat) : BitRow c v sch (.data0 sch low period) low period
  | eom : BitRow c v sch (.eom sch v) (if v then c.oneLowNom else c.zeroLowNom) c.bitNom

/-- Just before a symbol at `fall`: the line is released, last read HIGH, settled, and no TICK has come at `fall` yet. -/
abbrev LineQuiet (sch : Sched) (s : State) : Prop :=
  s.line.driveLow = false ∧ s.line.lastLine = true ∧ s.line.tDrive + s.params.tSettle ≤ s.time.tLast ∧
  0 < sch.gap ∧ s.time.tLast < sch.fall

/-- `n` TICKs, `gap` apart, each given the level `wave` leaves on the line and this core's own drive pulls LOW
(`40_line_interface.md` R156), with the events of all of them in order. -/
inductive LineRun (wave : Nat → Bool) (gap : Nat) : Nat → State → List Event → State → Prop where
  | done (s : State) : LineRun wave gap 0 s [] s
  | tick {n : Nat} {s s' t : State} {evs : List Event}
      (first : exec (.tick (s.time.tLast + gap) (wave (s.time.tLast + gap) && !s.line.driveLow)) s = .next s')
      (rest : LineRun wave gap n s' evs t) : LineRun wave gap (n + 1) s (s'.events ++ evs) t

/-- `n` is the number of TICKs, `gap` apart after `tLast`, that come before time `stop`. -/
abbrev TickCount (n tLast gap stop : Nat) : Prop := ∀ k, 1 ≤ k → (k ≤ n ↔ tLast + k * gap < stop)

/-- What a wire row does: the core is TICKed every `sch.gap` up to the end of the waveform `pulses` that begins at
`sch.fall`, and the step hands over all the events (log entry 6). -/
def RunsOnWire (i : Instr) (sch : Sched) (pulses : List Pulse) (s : State) : Prop :=
  ∃ n evs t, TickCount n s.time.tLast sch.gap (sch.fall + totalPeriod pulses) ∧
    LineRun (levelAt pulses sch.fall) sch.gap n s evs t ∧
    exec i s = .next { t with events := evs, response := none }

/-- The command code of an instruction (`30_encoding.md` R120); the other rows have none. -/
def commandCode : Instr → Option (BitVec 4)
  | .init _ _ _ => some 1
  | .transmit _ _ => some 2
  | .getLa => some 3
  | .getStatus => some 4
  | .reservedCmd code => some code
  | _ => none

/-- A latched INIT waits: a host frame is pending, or nothing is latched (`44_host_interface.md` R342). -/
abbrev NoInitDue (s : State) : Prop := s.pinit.valid = true → s.tx.pending = true ∧ s.tx.kind = .host

/-- The combination of `st`, `role` and `ph` stands in the table of `41_bit_timing.md` R172. -/
abbrev InTable (q : SeqRegs) : Prop :=
  q.st = .idle ∨ q.st = .interframeGap ∨
  (q.st = .awaitStart ∧ (q.ph = .driveLowEdge ∨ q.ph = .fullBitWait)) ∨
  (q.st = .sendStart ∧ (q.ph = .driveLowEdge ∨ q.ph = .sampleRelease ∨ q.ph = .fullBitWait)) ∨
  ((q.st = .bitPeriod ∨ q.st = .ackWindow) ∧ q.role = .tx ∧
    (q.ph = .driveLowEdge ∨ q.ph = .sampleRelease ∨ q.ph = .fullBitWait)) ∨
  ((q.st = .bitPeriod ∨ q.st = .ackWindow) ∧ q.role = .rx ∧ (q.ph = .driveLowEdge ∨ q.ph = .fullBitWait))

/-- The state between RESET and the first INIT (`70_reset_and_hazards.md` R421). -/
structure BeforeInit (s : State) : Prop where
  alloc : s.session.alloc = .uninit
  latch : s.pinit.valid = false
  pending : s.tx.pending = false
  prom : s.cfg.prom = false
  released : s.line.driveLow = false
  silent : s.rx.ackMe = false
  receiving : s.seq.role ≠ .tx ∧ s.seq.st ≠ .sendStart

end Sys2Proof.Machine
end

