-- ==== Sys2Proof/Certificates/Slice0/Obligations.lean ====
section
/-! DEFINITION. The statements for the provers. In a statement about a TICK the next state is written as the TICK's
sampling and epilogue (`sampled`) with the registers its handler writes, so that every register not named there is
unchanged. -/

section

open Sys2Proof Sys2Proof.Machine

/-! ### Encoding -/

/-- Decoding the transfer of a well-formed instruction, with any zero padding after it, gives the instruction back,
whatever the parameters and the operands. `30_encoding.md` R120 gives the command codes; the rest of the layout is the
model's choice (log entry 4). -/
def Obligations.DecodeEncodeRoundTrip : Prop :=
  ∀ (c : Config) (i : Instr) (n : Nat), i.wf c = true →
    decode { encode i with bytes := (encode i).bytes ++ List.replicate n 0 } = .ok i

/-- The bytes of a natural are read back, whatever follows them (the layout is the model's, log entry 4). -/
def Obligations.NaturalsReadBack : Prop :=
  ∀ (n : Nat) (rest : List Byte), takeNat (natBytes n ++ rest) = some (n, rest)

/-- `30_encoding.md` R120: "A decoder tells a command's operands from its code alone": whatever command decodes from a
transfer on the command port has the code in bits 3..0 of its first byte, and a reserved code spells no command. -/
def Obligations.CommandCodeDecides : Prop :=
  ∀ (h : Byte) (bs : List Byte) (i : Instr), decode ⟨.command, h :: bs⟩ = .ok i →
    commandCode i = some (lowNibble h) ∧
      (reservedCode (lowNibble h) = true ↔ i = .reservedCmd (lowNibble h))

/-- Words of the opcode table's command rows decode to the rows' instructions (R120's codes; operand bits 0 or, in
INIT(0x3000, 4, 1) and TRANSMIT(15, …), in the model's places, log entry 4). -/
def Obligations.TableWordsDecode : Prop :=
  decodeTableWord 8 0x1 = some (.init 0 0 false) ∧ decodeTableWord 8 0x2 = some (.transmit 0 []) ∧
  decodeTableWord 8 0x3 = some .getLa ∧ decodeTableWord 8 0x4 = some .getStatus ∧
  decodeTableWord 8 0x0 = some (.reservedCmd 0) ∧ decodeTableWord 8 0xF = some (.reservedCmd 15) ∧
  decodeTableWord 32 0x30000411 = some (.init 0x3000 4 true) ∧
  decodeTableWord 24 0x3601F2 = some (.transmit 15 [0x36])

/-! ### One step of the host's run -/

/-- When the next transfer decodes to an instruction, one step takes it off the port and runs it. -/
def Obligations.StepRunsDecoded : Prop :=
  ∀ (s : State) (inp : Input) (rest : List Input) (i : Instr), s.input = inp :: rest → decode inp = .ok i →
    step s = exec i { s with input := rest }

/-- The model's choices of log entries 3 and 4: with nothing presented a step only empties the output ports, and a
transfer that spells no instruction is refused by name. -/
def Obligations.StepWithoutInstruction : Prop :=
  ∀ s : State,
    (s.input = [] → step s = .next { s with events := [], response := none }) ∧
    (∀ inp rest e, s.input = inp :: rest → decode inp = .error e → step s = .refused (.undecodable e))

/-- The model's choices of log entries 3 and 4 (that the word goes before the transfers that wait, and which transfer a
table word becomes): a word of the opcode table presented to any machine is what the next step runs, whatever waits. -/
def Obligations.TableWordRunsNext : Prop :=
  ∀ (s : State) (nbits w : Nat) (i : Instr), decodeTableWord nbits w = some i →
    step (s.withFetchWord nbits w) = exec i s

/-! ### RESET -/

/-- `70_reset_and_hazards.md` R420: RESET(now0) is admitted in every state, whatever `now0` is, writes every register of
`10_state.md`, and emits nothing. That it keeps the parameters and the waiting transfers is the model's choice (log entry
15). -/
def Obligations.ResetWritesEveryRegister : Prop :=
  ∀ (now0 : Nat) (s : State),
    exec (.reset now0) s = .next
      { params := s.params, input := s.input, events := [], response := none
        cfg := ⟨0xFFFF, 0xFF, false⟩
        session := ⟨.uninit, 0xF, 0⟩
        seq := ⟨.idle, .driveLowEdge, .none, 0, 0⟩
        line := ⟨false, now0, false⟩
        time := ⟨now0, now0, now0, now0⟩
        rx := ⟨0, false, List.replicate s.params.maxFrame 0, List.replicate s.params.maxFrame false, 0, false⟩
        tx := ⟨List.replicate s.params.maxFrame 0, 0, List.replicate s.params.maxFrame false, false, .host, 0,
          s.params.sftBase, .none, false⟩
        pinit := ⟨false, 0, 0, false⟩ }

/-- The machine's power-up state is what RESET(0) leaves of any state with the default parameters and nothing presented
(the time 0 and the default parameters are the model's choice, log entries 1 and 2). -/
def Obligations.PowerUpIsReset : Prop :=
  ∀ s : State, s.params = Config.default → s.input = [] → exec (.reset 0) s = .next State.reset

/-- RESET establishes the run invariant from any state whose parameters meet `00_scope.md` R9. -/
def Obligations.ResetEstablishesInvariant : Prop :=
  RunInvariant State.reset ∧
  ∀ (now0 : Nat) (s : State), s.params.Wf → ∃ t, exec (.reset now0) s = .next t ∧ RunInvariant t

/-! ### Host commands -/

/-- `44_host_interface.md` R341: INIT latches its operands, answers ACCEPTED and changes nothing else. -/
def Obligations.InitLatchesAndAccepts : Prop :=
  ∀ (phys : BitVec 16) (devType : BitVec 8) (prom : Bool) (s : State),
    exec (.init phys devType prom) s = .next
      { s with pinit := ⟨true, phys, devType, prom⟩, events := [], response := some .accepted }

/-- `44_host_interface.md` R343: TRANSMIT's three rejections in their order, which write nothing, and what an accepted
one writes. That `MAX_FRAME - 1` is 0 at `MAX_FRAME = 0` and that `tx_len` is taken modulo 32 (log entry 21), and that a
buffer shorter than the frame grows (log entry 9), are the model's choices for parameters outside R9. -/
def Obligations.TransmitRespondsAndArms : Prop :=
  ∀ (dest : LogAddr) (payload : List Byte) (s : State),
    exec (.transmit dest payload) s = .next
      (if s.session.alloc ≠ .claimed then { s with events := [], response := some .rejectNotReady }
       else if s.tx.pending = true ∨ s.pinit.valid = true then
         { s with events := [], response := some .rejectBusy }
       else if payload.length > s.params.maxFrame - 1 then
         { s with events := [], response := some .rejectLength }
       else
         { s with
           tx := { s.tx with
             buf := (s.session.la ++ dest) :: payload ++ s.tx.buf.drop (payload.length + 1)
             len := BitVec.ofNat 5 (payload.length + 1), kind := .host, pending := true, attempt := 0
             sft := if s.tx.postSuccess = true then s.params.sftAfterSuccess else s.params.sftBase
             ack := List.replicate s.params.maxFrame false }
           time := { s.time with tAttempt := s.time.tLast }
           events := [], response := some .accepted })

/-- `30_encoding.md` R123, first item, entry by entry: after an accepted TRANSMIT in a run, `tx_buf[0]` is
`(la << 4) | dest`, `tx_buf[1+i]` is `payload[i]`, the later entries are unchanged and `tx_len` is `n + 1`. -/
def Obligations.TransmitAssemblesFrame : Prop :=
  ∀ (dest : LogAddr) (payload : List Byte) (s : State), RunInvariant s → s.session.alloc = .claimed →
    s.tx.pending = false → s.pinit.valid = false → payload.length + 1 ≤ s.params.maxFrame →
    ∃ t, exec (.transmit dest payload) s = .next t ∧
      ((t.tx.buf.getD 0 0).toNat = 16 * s.session.la.toNat + dest.toNat ∧ headerSrc (txHeader t.tx) = s.session.la ∧
        headerDst (txHeader t.tx) = dest) ∧
      (∀ i, i < payload.length → t.tx.buf[1 + i]? = payload[i]?) ∧
      (∀ i, payload.length < i → t.tx.buf[i]? = s.tx.buf[i]?) ∧
      t.tx.len.toNat = payload.length + 1 ∧ txBytes t.tx = headerByte s.session.la dest :: payload

/-- `44_host_interface.md` R344: GET_LA answers `la` and changes no register. Over states of a run that is 15 whenever no
address is claimed (R344's corner case), and a candidate of the declared type when one is (`10_state.md` R44, item 7). -/
def Obligations.GetLaAnswersAddress : Prop :=
  ∀ s : State,
    exec .getLa s = .next { s with events := [], response := some (.logAddr s.session.la) } ∧
    (RunInvariant s →
      (s.session.alloc ≠ .claimed → s.session.la = 15) ∧
      (s.session.alloc = .claimed → s.session.la ∈ s.params.candidatesFor s.cfg.devType))

/-- `44_host_interface.md` R345: GET_STATUS answers the record, field by field, with the codes of `10_state.md` R34, R35,
R39 and `30_encoding.md` R122, and changes no register. That the record's `tx_attempt` is a natural, where R345 gives it
3 bits, is the model's choice (log entry 10). -/
def Obligations.GetStatusAnswersRecord : Prop :=
  ∀ s : State, ∃ r : Status,
    exec .getStatus s = .next { s with events := [], response := some (.status r) } ∧
    (r.la = s.session.la ∧ r.candIdx = s.session.candIdx ∧ r.phys = s.cfg.phys ∧ r.devType = s.cfg.devType ∧
      r.prom = s.cfg.prom ∧ r.txPending = s.tx.pending ∧ r.txAttempt = s.tx.attempt ∧
      r.initPending = s.pinit.valid) ∧
    (s.session.alloc = .uninit → r.alloc = 0) ∧ (s.session.alloc = .polling → r.alloc = 1) ∧
    (s.session.alloc = .claimed → r.alloc = 2) ∧ (s.session.alloc = .failed → r.alloc = 3) ∧
    (s.seq.st = .idle → r.st = 0) ∧ (s.seq.st = .awaitStart → r.st = 1) ∧ (s.seq.st = .sendStart → r.st = 2) ∧
    (s.seq.st = .bitPeriod → r.st = 3) ∧ (s.seq.st = .ackWindow → r.st = 4) ∧
    (s.seq.st = .interframeGap → r.st = 5) ∧
    (s.seq.role = .none → r.role = 0) ∧ (s.seq.role = .tx → r.role = 1) ∧ (s.seq.role = .rx → r.role = 2) ∧
    (s.tx.kind = .host → r.txKind = 0) ∧ (s.tx.kind = .poll → r.txKind = 1) ∧
    (s.tx.outcome = .none → r.txOutcome = 0) ∧ (s.tx.outcome = .success → r.txOutcome = 1) ∧
    (s.tx.outcome = .nak → r.txOutcome = 2) ∧ (s.tx.outcome = .arbLost → r.txOutcome = 3) ∧
    (s.tx.outcome = .busError → r.txOutcome = 4) ∧ (s.tx.outcome = .timeout → r.txOutcome = 5)

/-- `30_encoding.md` R120: a command with a reserved code is refused by name, and so is its transfer at the port. -/
def Obligations.ReservedCommandRefused : Prop :=
  (∀ (code : BitVec 4) (s : State), exec (.reservedCmd code) s = .refused (.reservedCommand code)) ∧
  ∀ (h : Byte) (s : State) (rest : List Input), (lowNibble h = 0 ∨ 5 ≤ (lowNibble h).toNat) →
    s.input = ⟨.command, [h]⟩ :: rest → step s = .refused (.reservedCommand (lowNibble h))

/-- `44_host_interface.md` R340: "A CMD never writes `t_last`, never drives the line and never emits an event"; nor does
it write the sequencer, the receiver, the session or the configuration. -/
def Obligations.CommandsTouchOnlyLatches : Prop :=
  ∀ (i : Instr) (s t : State), (commandCode i).isSome = true → exec i s = .next t →
    t.time.tLast = s.time.tLast ∧ t.line = s.line ∧ t.events = [] ∧ t.seq = s.seq ∧ t.rx = s.rx ∧
    t.session = s.session ∧ t.cfg = s.cfg ∧ t.params = s.params ∧ t.input = s.input ∧
    t.time.tFall = s.time.tFall ∧ t.time.tFree = s.time.tFree

/-! ### Line primitives -/

/-- `40_line_interface.md` R151: READ returns the level and writes no register. That the level stands on the response
port is the model's choice (log entry 14). -/
def Obligations.ReadReturnsLevel : Prop :=
  ∀ (lineIn : Bool) (s : State),
    exec (.read lineIn) s = .next { s with events := [], response := some (.level lineIn) }

/-- `40_line_interface.md` R152: DRIVE(v) writes `drive_low` and, only when the value changes, `t_drive`. The time it
takes for `now` is `t_last`: the model's choice, log entry 7. -/
def Obligations.DriveSetsDrive : Prop :=
  ∀ (v : Bool) (s : State),
    exec (.drive v) s = .next
      { s with
        line := { s.line with
          driveLow := v, tDrive := if v = s.line.driveLow then s.line.tDrive else s.time.tLast }
        events := [], response := none }

/-! ### TICK: admission, sampling, selection -/

/-- `41_bit_timing.md` R170, `60_exceptions.md` R380: a TICK is refused exactly when `now <= t_last`; every other TICK
gives a next state. -/
def Obligations.TickAdmission : Prop :=
  ∀ (now : Nat) (lineIn : Bool) (s : State),
    (now ≤ s.time.tLast → exec (.tick now lineIn) s = .refused (.staleTick now s.time.tLast)) ∧
    (s.time.tLast < now → ∃ t, exec (.tick now lineIn) s = .next t)

/-- `40_line_interface.md` R154 and R155 with the epilogue of `41_bit_timing.md` R170, in every state: a TICK sets
`t_last`, samples `last_line` only when the read is valid, dates a rise in `t_free`, writes no parameter, takes nothing
off the ports, and releases or pulls the line only at `now`. -/
def Obligations.TickSamplesLine : Prop :=
  ∀ (now : Nat) (lineIn : Bool) (s : State), s.time.tLast < now →
    ∃ t, exec (.tick now lineIn) s = .next t ∧
      t.time.tLast = now ∧
      t.line.lastLine = (if ValidRead now s then lineIn else s.line.lastLine) ∧
      t.time.tFree = (if RiseSeen now lineIn s then now else s.time.tFree) ∧
      (t.line.tDrive = if t.line.driveLow = s.line.driveLow then s.line.tDrive else now) ∧
      t.params = s.params ∧ t.input = s.input ∧ t.response = none

/-- `60_exceptions.md` R387: a TICK emits at most one event, in every state. -/
def Obligations.TickEmitsAtMostOneEvent : Prop :=
  ∀ (now : Nat) (lineIn : Bool) (s t : State), exec (.tick now lineIn) s = .next t → t.events.length ≤ 1

/-- `41_bit_timing.md` R193: in a combination of `st`, `role` and `ph` outside the table of R172, where a register holds a
code that no rule writes, and where an invariant of `10_state.md` R44 is broken (its last line, and
`93_implementation_defined.md` items 15 and 16), a TICK does only its sampling and epilogue. That R44's item 5 counts only
where the parameters meet R9's constraint for it is DEDUCED (log entry 8). -/
def Obligations.OffTableTickOnlySamples : Prop :=
  ∀ (now : Nat) (lineIn : Bool) (s : State), s.time.tLast < now → (¬ InTable s.seq ∨ ¬ Legal s) →
    exec (.tick now lineIn) s = .next (sampled now lineIn s)

/-! ### TICK: the handlers -/

/-- `41_bit_timing.md` R173, with no INIT due: the three branches of the IDLE handler in their order (`idleNext`). -/
def Obligations.IdleYieldsTimesOutOrStarts : Prop :=
  ∀ (now : Nat) (lineIn : Bool) (s : State), s.time.tLast < now → Legal s → NoInitDue s → s.seq.st = .idle →
    exec (.tick now lineIn) s = .next (idleNext now lineIn s)

/-- `43_arbiter.md` R290: with no INIT due, a frame starts at a TICK in IDLE exactly when a transmission is pending, no
fall is seen, the attempt has not timed out, the read is valid and HIGH, and the bus has been free long enough. -/
def Obligations.FrameStartsOnlyOnFreeBus : Prop :=
  ∀ (now : Nat) (lineIn : Bool) (s t : State), Legal s → NoInitDue s → s.seq.st = .idle →
    exec (.tick now lineIn) s = .next t →
    (t.seq.st = .sendStart ↔
      s.tx.pending = true ∧ ¬ FallSeen now lineIn s ∧ now - s.time.tAttempt < s.params.tWaitFreeMax ∧
      ValidRead now s ∧ lineIn = true ∧ s.tx.sft * s.params.bitNom ≤ now - t.time.tFree)

/-- `41_bit_timing.md` R174, with no INIT due: the INTERFRAME_GAP handler. -/
def Obligations.GapEndsOrYields : Prop :=
  ∀ (now : Nat) (lineIn : Bool) (s : State), s.time.tLast < now → Legal s → NoInitDue s →
    s.seq.st = .interframeGap →
    exec (.tick now lineIn) s = .next
      (if FallSeen now lineIn s then
         { sampled now lineIn s with
           seq := { s.seq with st := .awaitStart, role := .rx, ph := .driveLowEdge }
           time := { sampledTime now lineIn s with tFall := now }
           tx := { s.tx with postSuccess := false } }
       else if elapsed now s ≥ s.params.bitNom then
         { sampled now lineIn s with seq := { s.seq with st := .idle, role := .none } }
       else sampled now lineIn s)

/-- `41_bit_timing.md` R175 and R176: the start bit's low time, then its period, in both sub-phases of AWAIT_START; out
of its band each is aborted as `60_exceptions.md` R383 says. -/
def Obligations.StartBitIsTimed : Prop :=
  ∀ (now : Nat) (lineIn : Bool) (s : State), s.time.tLast < now → Legal s → s.seq.st = .awaitStart →
    (s.seq.ph = .driveLowEdge →
      exec (.tick now lineIn) s = .next
        (if RiseSeen now lineIn s ∧ s.params.startLowMin ≤ elapsed now s ∧ elapsed now s ≤ s.params.startLowMax then
           { sampled now lineIn s with seq := { s.seq with ph := .fullBitWait } }
         else if RiseSeen now lineIn s ∨ elapsed now s > s.params.startLowMax then abortedRx now lineIn s
         else sampled now lineIn s)) ∧
    (s.seq.ph = .fullBitWait →
      exec (.tick now lineIn) s = .next
        (if FallSeen now lineIn s ∧ s.params.startTotalMin ≤ elapsed now s ∧
            elapsed now s ≤ s.params.startTotalMax then
           { sampled now lineIn s with
             seq := { s.seq with st := .bitPeriod, ph := .driveLowEdge, blk := 0, bitIdx := 0 }
             time := { sampledTime now lineIn s with tFall := now }
             rx := { s.rx with
               shift := 0, len := 0, ackMe := false, ack := List.replicate s.params.maxFrame false } }
         else if FallSeen now lineIn s ∨ elapsed now s > s.params.startTotalMax then abortedRx now lineIn s
         else sampled now lineIn s))

/-- `41_bit_timing.md` R177: sending the start bit's low part, and the release check. -/
def Obligations.StartBitIsSentAndChecked : Prop :=
  ∀ (now : Nat) (lineIn : Bool) (s : State), s.time.tLast < now → Legal s → s.seq.st = .sendStart →
    (s.seq.ph = .driveLowEdge →
      exec (.tick now lineIn) s = .next
        (if elapsed now s ≥ s.params.startLowNom then
           { sampled now lineIn s with
             line := driven now false (sampledLine now lineIn s), seq := { s.seq with ph := .sampleRelease } }
         else sampled now lineIn s)) ∧
    (s.seq.ph = .sampleRelease →
      exec (.tick now lineIn) s = .next
        (if ¬ ValidRead now s then sampled now lineIn s
         else if lineIn = false then
           attemptEnd now .arbLost
             { sampled now lineIn s with
               line := driven now false (sampledLine now lineIn s)
               seq := { s.seq with st := .idle, role := .none } }
         else { sampled now lineIn s with seq := { s.seq with ph := .fullBitWait } }))

/-- `41_bit_timing.md` R178: the start bit ends and header bit D7 begins. -/
def Obligations.StartBitEnds : Prop :=
  ∀ (now : Nat) (lineIn : Bool) (s : State), s.time.tLast < now → Legal s → s.seq.st = .sendStart →
    s.seq.ph = .fullBitWait →
    exec (.tick now lineIn) s = .next
      (if elapsed now s ≥ s.params.startTotalNom then
         { sampled now lineIn s with
           line := driven now true (sampledLine now lineIn s)
           time := { sampledTime now lineIn s with tFall := now }
           seq := { s.seq with st := .bitPeriod, ph := .driveLowEdge } }
       else sampled now lineIn s)

/-- `41_bit_timing.md` R180: a sent bit's low time is `ONE_LOW_NOM` or `ZERO_LOW_NOM` by the bit TxBit gives (R179). -/
def Obligations.SentBitHoldsNominalLow : Prop :=
  ∀ (now : Nat) (lineIn : Bool) (s : State), s.time.tLast < now → Legal s → s.seq.st = .bitPeriod →
    s.seq.role = .tx → s.seq.ph = .driveLowEdge →
    exec (.tick now lineIn) s = .next
      (if elapsed now s ≥ (if txBit s.seq s.tx = true then s.params.oneLowNom else s.params.zeroLowNom) then
         { sampled now lineIn s with
           line := driven now false (sampledLine now lineIn s), seq := { s.seq with ph := .sampleRelease } }
       else sampled now lineIn s)

/-- `41_bit_timing.md` R181: the sample of a sent bit: arbitration lost in the source nibble, bus error elsewhere, or the
bit recorded. -/
def Obligations.SentBitIsSampled : Prop :=
  ∀ (now : Nat) (lineIn : Bool) (s : State), s.time.tLast < now → Legal s → s.seq.st = .bitPeriod →
    s.seq.role = .tx → s.seq.ph = .sampleRelease →
    exec (.tick now lineIn) s = .next
      (if elapsed now s < s.params.tSample ∨ ¬ ValidRead now s then sampled now lineIn s
       else if txBit s.seq s.tx = true ∧ lineIn = false then
         if s.seq.blk = 0 ∧ s.seq.bitIdx.toNat ≤ 3 then
           attemptEnd now .arbLost
             { sampled now lineIn s with
               seq := { s.seq with role := .rx, ph := .driveLowEdge }
               rx := { s.rx with
                 len := 0, ackMe := false, ack := List.replicate s.params.maxFrame false } }
         else
           attemptEnd now .busError
             { sampled now lineIn s with seq := { s.seq with st := .idle, role := .none } }
       else
         { sampled now lineIn s with
           seq := { s.seq with ph := .fullBitWait }
           rx := if s.seq.bitIdx.toNat ≤ 7 then { s.rx with shift := shiftIn s.rx.shift (txBit s.seq s.tx) }
             else { s.rx with eom := txBit s.seq s.tx } })

/-- `41_bit_timing.md` R182, R183 and R185: the end of a sent bit, the low part of the sent ACK slot, and the next
block. That a 4-bit counter wraps, which happens in no run under R9, is the model's choice (log entry 21). -/
def Obligations.SentPeriodsAdvance : Prop :=
  ∀ (now : Nat) (lineIn : Bool) (s : State), s.time.tLast < now → Legal s → s.seq.role = .tx →
    (s.seq.st = .bitPeriod → s.seq.ph = .fullBitWait →
      exec (.tick now lineIn) s = .next
        (if elapsed now s ≥ s.params.bitNom then
           { sampled now lineIn s with
             line := driven now true (sampledLine now lineIn s)
             time := { sampledTime now lineIn s with tFall := now }
             seq := { s.seq with
               bitIdx := s.seq.bitIdx + 1, ph := .driveLowEdge
               st := if s.seq.bitIdx + 1 = 9 then .ackWindow else .bitPeriod } }
         else sampled now lineIn s)) ∧
    (s.seq.st = .ackWindow → s.seq.ph = .driveLowEdge →
      exec (.tick now lineIn) s = .next
        (if elapsed now s ≥ s.params.oneLowNom then
           { sampled now lineIn s with
             line := driven now false (sampledLine now lineIn s), seq := { s.seq with ph := .sampleRelease } }
         else sampled now lineIn s)) ∧
    (s.seq.st = .ackWindow → s.seq.ph = .fullBitWait →
      exec (.tick now lineIn) s = .next
        (if elapsed now s ≥ s.params.bitNom then
           { sampled now lineIn s with
             line := driven now true (sampledLine now lineIn s)
             time := { sampledTime now lineIn s with tFall := now }
             seq := { s.seq with
               blk := s.seq.blk + 1, bitIdx := 0, ph := .driveLowEdge, st := .bitPeriod } }
         else sampled now lineIn s))

/-- `41_bit_timing.md` R184 with the polarity of `30_encoding.md` R115: the sample of the ACK slot decides the attempt. A
LOW acknowledges a directed frame and rejects a broadcast. That block 0 counts as the last where `tx_len = 0`, which no run
under R9 has, is the model's choice (log entry 21). -/
def Obligations.AckSampleDecidesAttempt : Prop :=
  ∀ (now : Nat) (lineIn : Bool) (s : State), s.time.tLast < now → Legal s → s.seq.st = .ackWindow →
    s.seq.role = .tx → s.seq.ph = .sampleRelease →
    exec (.tick now lineIn) s = .next
      (let ack := if (s.tx.buf.getD 0 0).toNat % 16 = 15 then lineIn else !lineIn
       let u := { sampled now lineIn s with tx := { s.tx with ack := s.tx.ack.set s.seq.blk.toNat ack } }
       if elapsed now s < s.params.tSample ∨ ¬ ValidRead now s then sampled now lineIn s
       else if ack = false then attemptEnd now .nak { u with seq := { s.seq with st := .idle, role := .none } }
       else if s.seq.blk.toNat = s.tx.len.toNat - 1 then
         attemptEnd now .success { u with seq := { s.seq with st := .interframeGap } }
       else { u with seq := { s.seq with ph := .fullBitWait } })

/-- `41_bit_timing.md` R187 with R186's bands: a received data bit is shifted in at its rise; D0 stores the byte, and in
block 0 decides `ack_me` (`42_framer.md` R254, R256); bit 8 is EOM (`decodedBit`); out of band is aborted. That a low time
in both bands, which only parameters outside R9 have, is a 1 is the model's choice (log entry 20). -/
def Obligations.ReceivedBitIsDecoded : Prop :=
  ∀ (now : Nat) (lineIn : Bool) (s : State), s.time.tLast < now → Legal s → s.seq.st = .bitPeriod →
    s.seq.role = .rx → s.seq.ph = .driveLowEdge →
    let one := s.params.oneLowMin ≤ elapsed now s ∧ elapsed now s ≤ s.params.oneLowMax
    let zero := s.params.zeroLowMin ≤ elapsed now s ∧ elapsed now s ≤ s.params.zeroLowMax
    exec (.tick now lineIn) s = .next
      (if RiseSeen now lineIn s ∧ (one ∨ zero) then
         { sampled now lineIn s with
           seq := { s.seq with ph := .fullBitWait }, rx := decodedBit s.session s.seq (decide one) s.rx }
       else if RiseSeen now lineIn s ∨ elapsed now s > s.params.zeroLowMax then abortedRx now lineIn s
       else sampled now lineIn s)

/-- `41_bit_timing.md` R188: the next falling edge in the bit period's band; at the ACK slot the core pulls the line LOW
exactly when `ack_me = 1`. That a 4-bit counter wraps, which happens in no run under R9, is the model's choice (log entry
21). -/
def Obligations.ReceivedBitEndsAndAcks : Prop :=
  ∀ (now : Nat) (lineIn : Bool) (s : State), s.time.tLast < now → Legal s → s.seq.st = .bitPeriod →
    s.seq.role = .rx → s.seq.ph = .fullBitWait →
    exec (.tick now lineIn) s = .next
      (if FallSeen now lineIn s ∧ s.params.bitMin ≤ elapsed now s ∧ elapsed now s ≤ s.params.bitMax then
         { sampled now lineIn s with
           time := { sampledTime now lineIn s with tFall := now }
           seq := { s.seq with
             ph := .driveLowEdge, bitIdx := s.seq.bitIdx + 1
             st := if s.seq.bitIdx = 8 then .ackWindow else .bitPeriod }
           line := if s.seq.bitIdx = 8 ∧ s.rx.ackMe = true then driven now true (sampledLine now lineIn s)
             else sampledLine now lineIn s }
       else if FallSeen now lineIn s ∨ elapsed now s > s.params.bitMax then abortedRx now lineIn s
       else sampled now lineIn s)

/-- `41_bit_timing.md` R189: the end of this core's ACK pulse, the decoding of the ACK slot, the end of the frame with
its delivery (`42_framer.md` R255, R259, R266), the abandoned frame (R260) and the overflow (R261), which keeps what R189
has recorded where R383 says otherwise (DEDUCED, log entry 19). That a low time in both bands, which only parameters
outside R9 have, is a 1 is the model's choice (log entry 20), and so is that a slice of a buffer shorter than the frame is cut at its
end (log entry 9). -/
def Obligations.ReceivedAckDecidesFrame : Prop :=
  ∀ (now : Nat) (lineIn : Bool) (s : State), s.time.tLast < now → Legal s → s.seq.st = .ackWindow →
    s.seq.role = .rx → s.seq.ph = .driveLowEdge →
    let one := s.params.oneLowMin ≤ elapsed now s ∧ elapsed now s ≤ s.params.oneLowMax
    let zero := s.params.zeroLowMin ≤ elapsed now s ∧ elapsed now s ≤ s.params.zeroLowMax
    let dst := headerDst (s.rx.buf.getD 0 0)
    let ack := if dst = 15 then decide one else !decide one
    let rx' := { s.rx with ack := s.rx.ack.set s.seq.blk.toNat ack, len := s.seq.blk.zeroExtend 5 + 1 }
    let n := s.seq.blk.toNat + 1
    exec (.tick now lineIn) s = .next
      (if s.line.driveLow = true ∧ elapsed now s ≥ s.params.tAckLow then
         { sampled now lineIn s with line := driven now false (sampledLine now lineIn s) }
       else if RiseSeen now lineIn s ∧ (one ∨ zero) then
         if s.rx.eom = true then
           { sampled now lineIn s with
             seq := { s.seq with st := .interframeGap }, rx := rx'
             events :=
               if s.cfg.prom = true ∨ dst = 15 ∨ (s.session.alloc = .claimed ∧ dst = s.session.la) then
                 [.rxComplete (rx'.buf.take n) (rx'.ack.take n) ((rx'.ack.take n).all id)]
               else [] }
         else if ack = false then
           { sampled now lineIn s with seq := { s.seq with st := .idle, role := .none }, rx := rx' }
         else if n ≥ s.params.maxFrame then { abortedRx now lineIn s with rx := rx' }
         else { sampled now lineIn s with seq := { s.seq with ph := .fullBitWait }, rx := rx' }
       else if RiseSeen now lineIn s ∨ (s.line.driveLow = false ∧ elapsed now s > s.params.zeroLowMax) then
         abortedRx now lineIn s
       else sampled now lineIn s)

/-- `41_bit_timing.md` R190: the first falling edge of the next block. That a 4-bit counter wraps, which happens in
no run under R9, is the model's choice (log entry 21). -/
def Obligations.ReceivedBlockFollows : Prop :=
  ∀ (now : Nat) (lineIn : Bool) (s : State), s.time.tLast < now → Legal s → s.seq.st = .ackWindow →
    s.seq.role = .rx → s.seq.ph = .fullBitWait →
    exec (.tick now lineIn) s = .next
      (if FallSeen now lineIn s ∧ s.params.bitMin ≤ elapsed now s ∧ elapsed now s ≤ s.params.bitMax then
         { sampled now lineIn s with
           seq := { st := .bitPeriod, ph := .driveLowEdge, role := .rx, blk := s.seq.blk + 1, bitIdx := 0 }
           time := { sampledTime now lineIn s with tFall := now }
           rx := { s.rx with shift := 0 } }
       else if FallSeen now lineIn s ∨ elapsed now s > s.params.bitMax then abortedRx now lineIn s
       else sampled now lineIn s)

/-! ### AttemptEnd and allocation -/

/-- `43_arbiter.md` R298: what AttemptEnd does, for a poll and for a host frame, with NextCandidate left to its own
statement. That a slice of a buffer shorter than the frame, outside R9 or the run invariant, is cut at its end is the
model's choice (log entry 9), and so is that a TIMEOUT reports what `tx_ack` still holds (log entry 22). -/
def Obligations.AttemptEndDecides : Prop :=
  ∀ (now : Nat) (o : TxOutcome) (s : State),
    let tx' := { s.tx with outcome := o, postSuccess := decide (o = .success) }
    let tx'' := { tx' with attempt := s.tx.attempt + 1 }
    let retry : State :=
      { s with
        tx := { tx'' with sft := s.params.sftBase + (s.tx.attempt + 1) * s.params.sftStep }
        time := { s.time with tAttempt := now } }
    (s.tx.kind = .poll →
      attemptEnd now o s =
        (let c := (s.tx.buf.getD 0 0).extractLsb' 0 4
         if o = .success then nextCandidate now { s with tx := tx' }
         else if o = .nak then
           { s with
             session := { s.session with la := c, alloc := .claimed }, tx := { tx' with pending := false }
             events := s.events ++ [.ready c] }
         else if s.tx.attempt + 1 ≥ s.params.maxAttempts then nextCandidate now { s with tx := tx'' }
         else retry)) ∧
    (s.tx.kind = .host →
      attemptEnd now o s =
        (if o = .success then
           { s with
             tx := { tx' with pending := false }
             events := s.events ++
               [.txComplete (s.tx.buf.take s.tx.len.toNat) (s.tx.ack.take s.tx.len.toNat) true .success] }
         else if s.tx.attempt + 1 ≥ s.params.maxAttempts then
           { s with
             tx := { tx'' with pending := false }
             events := s.events ++
               [.txComplete (s.tx.buf.take s.tx.len.toNat) (s.tx.ack.take s.tx.len.toNat) false o] }
         else retry))

/-- `43_arbiter.md` R302 and R304: NextCandidate arms the poll of the next listed candidate, or fails the allocation at
the end of the list. That `cand_idx` wraps at 15 (log entries 10 and 21) and that an empty buffer grows (log entry 9), in
states that no run reaches, are the model's choices. -/
def Obligations.NextCandidateAdvancesOrFails : Prop :=
  ∀ (now : Nat) (s : State),
    let idx := s.session.candIdx + 1
    let list := s.params.candidatesFor s.cfg.devType
    (idx.toNat ≥ list.length →
      nextCandidate now s =
        { s with
          session := { s.session with candIdx := idx, alloc := .failed }, tx := { s.tx with pending := false }
          events := s.events ++ [.allocFailed] }) ∧
    ∀ h : idx.toNat < list.length,
      nextCandidate now s =
        { s with
          session := { s.session with candIdx := idx }
          tx := { s.tx with
            buf := (list[idx.toNat] ++ list[idx.toNat]) :: s.tx.buf.drop 1
            len := 1, kind := .poll, pending := true, attempt := 0
            sft := if s.tx.postSuccess = true then s.params.sftAfterSuccess else s.params.sftBase
            ack := List.replicate s.params.maxFrame false }
          time := { s.time with tAttempt := now } }

/-- `44_host_interface.md` R342 and `43_arbiter.md` R309, the whole TICK that applies a latched INIT: the configuration is
the latch's, the old address is released, the engine is in IDLE with no role, and the allocation polls the first candidate
(R302) or has failed; from that state the TICK goes on as the IDLE handler does (`41_bit_timing.md` R170, R173). That an
empty `tx_buf` grows to hold the poll, for parameters outside R9, is the model's choice (log entry 9). -/
def Obligations.LatchedInitIsApplied : Prop :=
  ∀ (now : Nat) (lineIn : Bool) (s : State), s.time.tLast < now → Legal s → s.pinit.valid = true →
    (s.seq.st = .idle ∨ s.seq.st = .interframeGap) → ¬ (s.tx.pending = true ∧ s.tx.kind = .host) →
    let applied : State :=
      { s with
        cfg := ⟨s.pinit.phys, s.pinit.devType, s.pinit.prom⟩, pinit := { s.pinit with valid := false }
        seq := { s.seq with st := .idle, role := .none } }
    (s.params.candidatesFor s.pinit.devType = [] →
      exec (.tick now lineIn) s = .next
        { idleNext now lineIn
            { applied with session := ⟨.failed, 15, 0⟩, tx := { s.tx with pending := false } } with
          events := [.allocFailed] }) ∧
    ∀ c rest, s.params.candidatesFor s.pinit.devType = c :: rest →
      exec (.tick now lineIn) s = .next
        (idleNext now lineIn
          { applied with
            session := ⟨.polling, 15, 0⟩
            tx := { s.tx with
              buf := (c ++ c) :: s.tx.buf.drop 1, len := 1, kind := .poll, pending := true, attempt := 0
              sft := if s.tx.postSuccess = true then s.params.sftAfterSuccess else s.params.sftBase
              ack := List.replicate s.params.maxFrame false }
            time := { s.time with tAttempt := now } })

/-- `44_host_interface.md` R342, D23: a latched INIT never cancels a pending host frame and never touches a frame on the
bus: while a host frame is pending, or the engine is in neither IDLE nor INTERFRAME_GAP, a TICK leaves the latch and the
configuration as they are, does all else as it would with any other latch, and a pending host frame stays pending as it
is or ends with its own TX_COMPLETE. -/
def Obligations.LatchedInitWaits : Prop :=
  ∀ (now : Nat) (lineIn : Bool) (s t : State),
    ((s.tx.pending = true ∧ s.tx.kind = .host) ∨ (s.seq.st ≠ .idle ∧ s.seq.st ≠ .interframeGap)) →
    exec (.tick now lineIn) s = .next t →
    t.pinit = s.pinit ∧ t.cfg = s.cfg ∧
    (∀ p, exec (.tick now lineIn) { s with pinit := p } = .next { t with pinit := p }) ∧
    (s.tx.pending = true → s.tx.kind = .host →
      (t.tx.pending = true ∧ t.tx.kind = .host ∧ t.tx.buf = s.tx.buf ∧ t.tx.len = s.tx.len) ∨
      ∃ acks ok o, t.events = [.txComplete (txBytes s.tx) acks ok o])

/-! ### Whole-machine rules -/

/-- `10_state.md` R44: from every state of the run invariant (R44's invariants, the counters' bounds of `41_bit_timing.md`
R199 and the facts that make them inductive), if the environment obeys the wired-AND (`40_line_interface.md` R156) and gives no DRIVE from
outside (`30_encoding.md` R124), every step keeps it. -/
def Obligations.StepKeepsInvariant : Prop :=
  ∀ s t : State, RunInvariant s → NextInputOk s → step s = .next t → RunInvariant t

/-- `20_memory.md` R94: no step writes a parameter. -/
def Obligations.ParametersNeverWritten : Prop :=
  ∀ s t : State, step s = .next t → t.params = s.params

/-- `00_scope.md` R12: time never runs backward but through RESET, and a TICK moves it to its `now`. -/
def Obligations.TimeRunsForward : Prop :=
  ∀ (i : Instr) (s t : State), (∀ now0, i ≠ .reset now0) → exec i s = .next t →
    s.time.tLast ≤ t.time.tLast ∧ ∀ now lineIn, i = .tick now lineIn → s.time.tLast < now ∧ t.time.tLast = now

/-- `43_arbiter.md` R308: once claimed, the address changes only through an applied INIT or RESET. Over states of a run,
every other instruction that completes and after which a latched INIT is still latched (so that none was applied) leaves
`la` and the claim as they are, whatever the bus does and however a transmission fails. -/
def Obligations.ClaimedAddressIsImmutable : Prop :=
  ∀ (i : Instr) (s t : State), RunInvariant s → EnvOk s i → s.session.alloc = .claimed →
    (∀ now0, i ≠ .reset now0) → exec i s = .next t → (s.pinit.valid = true → t.pinit.valid = true) →
    t.session.la = s.session.la ∧ t.session.alloc = .claimed

/-- `10_state.md` R33: the configuration registers are written only by an applied INIT and RESET: in every state, every
other instruction that completes and after which a latched INIT is still latched leaves them. -/
def Obligations.ConfigurationOnlyFromInit : Prop :=
  ∀ (i : Instr) (s t : State), (∀ now0, i ≠ .reset now0) → exec i s = .next t →
    (s.pinit.valid = true → t.pinit.valid = true) → t.cfg = s.cfg

/-- `70_reset_and_hazards.md` R421: between RESET and INIT the core keeps ticking and receiving, never drives the line,
acknowledges nothing, delivers broadcasts only, and rejects TRANSMIT. -/
def Obligations.SilentBeforeInit : Prop :=
  (∀ now0 s, ∃ t, exec (.reset now0) s = .next t ∧ BeforeInit t) ∧
  ∀ s, BeforeInit s →
    (∀ now lineIn, s.time.tLast < now → ∃ t, exec (.tick now lineIn) s = .next t ∧ BeforeInit t ∧
      ∀ e ∈ t.events, ∃ bytes acks ack, e = .rxComplete bytes acks ack ∧ headerDst (bytes.getD 0 0) = 15) ∧
    ∀ dest payload, ∃ t, exec (.transmit dest payload) s = .next t ∧ t.response = some .rejectNotReady ∧
      BeforeInit t

/-- `43_arbiter.md` R299 and `44_host_interface.md` R349, one TICK at a time over states of a run: a pending host
transmission goes on, with at most one more failed attempt and no TX_COMPLETE, or ends with exactly one TX_COMPLETE of
its frame, at a SUCCESS or at its `MAX_ATTEMPTS`-th failure. That the acks after a final TIMEOUT are those `tx_ack`
still holds is the model's choice (log entry 22). -/
def Obligations.HostTransmissionEndsOnce : Prop :=
  ∀ (now : Nat) (lineIn : Bool) (s t : State), RunInvariant s → s.tx.pending = true → s.tx.kind = .host →
    exec (.tick now lineIn) s = .next t →
    (t.tx.pending = true ∧ t.tx.kind = .host ∧ t.tx.buf = s.tx.buf ∧ t.tx.len = s.tx.len ∧
      s.tx.attempt ≤ t.tx.attempt ∧ t.tx.attempt ≤ s.tx.attempt + 1 ∧ t.tx.attempt < s.params.maxAttempts ∧
      ∀ e ∈ t.events, ∀ bytes acks ok o, e ≠ .txComplete bytes acks ok o) ∨
    (t.tx.pending = false ∧ ∃ ok, t.events = [.txComplete (txBytes s.tx) (txAcks t.tx) ok t.tx.outcome] ∧
      ((ok = true ∧ t.tx.outcome = .success ∧ t.tx.attempt = s.tx.attempt) ∨
        (ok = false ∧ t.tx.outcome ≠ .success ∧ t.tx.attempt = s.params.maxAttempts)))

/-- `44_host_interface.md` R347 and `43_arbiter.md` R305: READY names the address the core then holds, a candidate of its
type, and comes only from a poll whose last attempt was not acknowledged. -/
def Obligations.ReadyNamesClaimedAddress : Prop :=
  ∀ (now : Nat) (lineIn : Bool) (s t : State) (la : LogAddr), RunInvariant s →
    exec (.tick now lineIn) s = .next t → Event.ready la ∈ t.events →
    t.session.la = la ∧ t.session.alloc = .claimed ∧ t.tx.outcome = .nak ∧ s.tx.kind = .poll ∧
    la ∈ s.params.candidatesFor s.cfg.devType ∧ t.tx.pending = false

/-- `60_exceptions.md` R381 (b), (c): a state of a run in which every attempt failed on the last candidate surfaces once:
ALLOC_FAILED comes only with `alloc` at FAILED, the address at 15 and nothing pending (`43_arbiter.md` R306). -/
def Obligations.AllocFailedLeavesNoAddress : Prop :=
  ∀ (now : Nat) (lineIn : Bool) (s t : State), RunInvariant s → exec (.tick now lineIn) s = .next t →
    Event.allocFailed ∈ t.events →
    t.session.alloc = .failed ∧ t.session.la = 15 ∧ t.tx.pending = false ∧ t.events = [.allocFailed]

/-- `42_framer.md` R259: in every state, a TICK delivers a frame only if it is broadcast, or the core is promiscuous, or
it is directed to the claimed address; what it delivers is the receive record of `rx_len` bytes (cut at the end of a
shorter buffer, outside R9: the model's choice, log entry 9). -/
def Obligations.DeliveryIsFiltered : Prop :=
  ∀ (now : Nat) (lineIn : Bool) (s t : State) (bytes : List Byte) (acks : List Bool) (ack : Bool),
    exec (.tick now lineIn) s = .next t → Event.rxComplete bytes acks ack ∈ t.events →
    (s.cfg.prom = true ∨ headerDst (rxHeader s.rx) = 15 ∨
      (s.session.alloc = .claimed ∧ headerDst (rxHeader s.rx) = s.session.la)) ∧
    bytes = rxBytes t.rx ∧ acks = rxAcks t.rx ∧ (ack = true ↔ ∀ a ∈ acks, a = true) ∧ s.rx.eom = true

/-- `41_bit_timing.md` R197 over states of a run: a core that is not sending pulls the line LOW only in the ACK slot of a
frame it has decided to acknowledge. -/
def Obligations.ReceiverDrivesOnlyItsAck : Prop :=
  ∀ (now : Nat) (lineIn : Bool) (s t : State), RunInvariant s → (lineIn = true → s.line.driveLow = false) →
    exec (.tick now lineIn) s = .next t → t.line.driveLow = true → t.seq.role ≠ .tx →
    t.seq.role = .rx ∧ t.seq.st = .ackWindow ∧ t.seq.ph = .driveLowEdge ∧ t.rx.ackMe = true ∧
    s.rx.ackMe = true

/-! ### The wire rows -/

/-- The meaning of the nine wire rows (log entry 6): TICKs through the row's waveform of `30_encoding.md` R110, R111,
R112, R113, R114, R115 and R116, written out here. Each completes in every state. -/
def Obligations.WireRowsRunTheirWaveform : Prop :=
  ∀ (sch : Sched) (s : State), 0 < sch.gap →
    let c := s.params
    let bit := fun b : Bool => (⟨if b then c.oneLowNom else c.zeroLowNom, c.bitNom⟩ : Pulse)
    let slot := fun a : Bool => (⟨if a then c.oneLowNom else c.tAckLow, c.bitNom⟩ : Pulse)
    let data := fun d : Byte => [bit (d.getLsbD 7), bit (d.getLsbD 6), bit (d.getLsbD 5), bit (d.getLsbD 4),
      bit (d.getLsbD 3), bit (d.getLsbD 2), bit (d.getLsbD 1), bit (d.getLsbD 0)]
    (∀ low period, RunsOnWire (.start sch low period) sch [⟨low, period⟩] s) ∧
    (∀ low period, RunsOnWire (.data0 sch low period) sch [⟨low, period⟩] s) ∧
    (∀ low period, RunsOnWire (.data1 sch low period) sch [⟨low, period⟩] s) ∧
    (∀ d e a, RunsOnWire (.block sch d e a) sch (data d ++ [bit e, slot a]) s) ∧
    (∀ e, RunsOnWire (.eom sch e) sch [bit e] s) ∧
    (∀ a, RunsOnWire (.ackSlot sch a) sch [slot a] s) ∧
    (∀ src dst, RunsOnWire (.header sch src dst) sch (data (src ++ dst)) s) ∧
    (∀ blocks d a, RunsOnWire (.frame sch (blocks ++ [(d, a)])) sch
      ([⟨c.startLowNom, c.startTotalNom⟩] ++
        blocks.flatMap (fun p => data p.1 ++ [bit false, slot p.2]) ++ (data d ++ [bit true, slot a])) s) ∧
    (∀ cand a, RunsOnWire (.poll sch cand a) sch
      ([⟨c.startLowNom, c.startTotalNom⟩] ++ data (cand ++ cand) ++ [bit true, slot a]) s)

/-- The level a list of bit periods leaves on the line (`30_encoding.md` R110): HIGH before the first falling edge, LOW
through each period's low time, HIGH to its end, and HIGH after the last one. -/
def Obligations.WaveformLevels : Prop :=
  ∀ (before after : List Pulse) (p : Pulse) (fall t : Nat),
    (∀ q ∈ before ++ p :: after, q.low ≤ q.period) →
    (t < fall → levelAt (before ++ p :: after) fall t = true) ∧
    (∀ d, d < p.period → t = fall + totalPeriod before + d →
      levelAt (before ++ p :: after) fall t = decide (p.low ≤ d)) ∧
    (fall + totalPeriod (before ++ p :: after) ≤ t → levelAt (before ++ p :: after) fall t = true)

/-- A START symbol seen by a core in IDLE or INTERFRAME_GAP (`41_bit_timing.md` R173, R174, R175), with nothing pending or
with a pending frame that the first TICK's fall keeps from starting (`43_arbiter.md` R293): whatever the TICK grid, if the
low time lies inside the accepted band by at least one TICK gap on each side (R196's measuring error), the core ends the
symbol waiting for the end of the start bit, with its falling edge and its rise each dated at the first TICK that could see
it. That the row is a run of TICKs is the model's choice (log entry 6). -/
def Obligations.StartSymbolIsReceived : Prop :=
  ∀ (sch : Sched) (low period : Nat) (s : State),
    Legal s → NoInitDue s → LineQuiet sch s → (s.seq.st = .idle ∨ s.seq.st = .interframeGap) →
    (s.tx.pending = false ∨ sch.fall ≤ s.time.tLast + sch.gap) →
    s.params.startLowMin + sch.gap ≤ low → sch.gap ≤ low → low + sch.gap ≤ s.params.startLowMax →
    low + sch.gap ≤ period → period ≤ s.params.startTotalMax →
    ∃ t, exec (.start sch low period) s = .next t ∧
      t.seq = { s.seq with st := .awaitStart, role := .rx, ph := .fullBitWait } ∧
      sch.fall ≤ t.time.tFall ∧ t.time.tFall < sch.fall + sch.gap ∧
      sch.fall + low ≤ t.time.tFree ∧ t.time.tFree < sch.fall + low + sch.gap ∧
      t.time.tAttempt = s.time.tAttempt ∧ t.params = s.params ∧
      t.line = s.line ∧ t.events = [] ∧ t.rx = s.rx ∧ t.tx = { s.tx with postSuccess := false } ∧
      t.session = s.session ∧ t.cfg = s.cfg ∧ t.pinit = s.pinit

/-- A data or EOM bit on the wire, through the rows DATA0, DATA1 and EOM (`41_bit_timing.md` R176, R186, R187, R188, R190):
wherever a receiver waits for a bit (the first after the start bit, the next of a block, the first of the next block), if
its low time lies inside its band, and its falling edge inside the accepted period, by at least one TICK gap on each
side, the receiver decodes exactly that bit into its datapath and waits for the next edge. That a row is a run of TICKs is
the model's choice (log entry 6), and so is that `blk` wraps after block 15, outside R9 or the run invariant (log
entry 21). -/
def Obligations.DataSymbolIsReceived : Prop :=
  ∀ (v : Bool) (i : Instr) (sch : Sched) (low period lo hi : Nat) (q : SeqRegs) (r : RxRegs) (s : State),
    Legal s → LineQuiet sch s → NextRxBit s lo hi q r → BitRow s.params v sch i low period →
    s.params.oneLowMax < s.params.zeroLowMin → s.params.oneLowMax ≤ s.params.zeroLowMax →
    s.time.tFall + lo ≤ sch.fall → sch.fall + sch.gap ≤ s.time.tFall + hi →
    (if v then s.params.oneLowMin else s.params.zeroLowMin) + sch.gap ≤ low → sch.gap ≤ low →
    low + sch.gap ≤ (if v then s.params.oneLowMax else s.params.zeroLowMax) →
    low + sch.gap ≤ period → period ≤ s.params.bitMax →
    ∃ t, exec i s = .next t ∧
      t.seq = q ∧ t.rx = decodedBit s.session q v r ∧
      sch.fall ≤ t.time.tFall ∧ t.time.tFall < sch.fall + sch.gap ∧
      t.time.tAttempt = s.time.tAttempt ∧ t.params = s.params ∧
      t.line = s.line ∧ t.events = [] ∧ t.tx = s.tx ∧ t.session = s.session ∧ t.cfg = s.cfg ∧ t.pinit = s.pinit

/-- An ACK slot on the wire (`41_bit_timing.md` R188, R189, R197, `30_encoding.md` R115), after the EOM bit of a block: the
core changes its drive exactly when `ack_me = 1` (then `t_drive` dates the end of its pulse, `T_ACK_LOW` after the fall it
saw; otherwise `t_drive` is kept), and decodes a 0 when anyone pulled LOW, a 1 otherwise; the ack is recorded, and the frame
ends (delivered if wanted), is abandoned, overflows (keeping what R189 has recorded where R383 says otherwise, DEDUCED, log
entry 19) or goes on. The hypotheses keep every edge one TICK gap inside its band (R196), and a frame that leaves the core in IDLE must find nothing
pending there. That the row is a run of TICKs (log entry 6), and that a slice of a buffer shorter than the frame is cut at its
end (log entry 9), are the model's choices. -/
def Obligations.AckSlotIsReceived : Prop :=
  ∀ (a : Bool) (sch : Sched) (s : State),
    let c := s.params
    let v := a && !s.rx.ackMe
    let dst := headerDst (rxHeader s.rx)
    let ack := if dst = 15 then v else !v
    let n := s.seq.blk.toNat + 1
    let rx' := { s.rx with ack := s.rx.ack.set s.seq.blk.toNat ack, len := s.seq.blk.zeroExtend 5 + 1 }
    Legal s → LineQuiet sch s → NoInitDue s →
    (s.tx.pending = true → s.rx.eom = true ∨ (ack = true ∧ n < c.maxFrame)) →
    s.seq.st = .bitPeriod → s.seq.role = .rx → s.seq.ph = .fullBitWait → s.seq.bitIdx = 8 →
    s.time.tFall + c.bitMin ≤ sch.fall → sch.fall + sch.gap ≤ s.time.tFall + c.bitMax →
    c.oneLowMin + sch.gap ≤ c.oneLowNom → sch.gap ≤ c.oneLowNom → c.oneLowNom + sch.gap ≤ c.oneLowMax →
    c.oneLowMax < c.zeroLowMin → c.zeroLowMin + sch.gap ≤ c.tAckLow →
    c.tAckLow + c.tSettle + 2 * sch.gap ≤ c.zeroLowMax → c.tAckLow + c.tSettle + 3 * sch.gap ≤ c.bitNom →
    c.bitNom ≤ c.bitMax →
    ∃ t, exec (.ackSlot sch a) s = .next t ∧
      t.seq =
        (if s.rx.eom = true then ⟨.interframeGap, .driveLowEdge, .rx, 9, s.seq.blk⟩
         else if ack = false ∨ c.maxFrame ≤ n then ⟨.idle, .driveLowEdge, .none, 9, s.seq.blk⟩
         else ⟨.ackWindow, .fullBitWait, .rx, 9, s.seq.blk⟩) ∧
      t.rx = rx' ∧
      t.events =
        (if s.rx.eom = true ∧
            (s.cfg.prom = true ∨ dst = 15 ∨ (s.session.alloc = .claimed ∧ dst = s.session.la)) then
           [.rxComplete (rx'.buf.take n) (rx'.ack.take n) ((rx'.ack.take n).all id)]
         else []) ∧
      sch.fall ≤ t.time.tFall ∧ t.time.tFall < sch.fall + sch.gap ∧
      t.line.driveLow = false ∧ t.line.lastLine = true ∧
      (s.rx.ackMe = false → t.line.tDrive = s.line.tDrive) ∧
      (s.rx.ackMe = true →
        sch.fall + c.tAckLow ≤ t.line.tDrive ∧ t.line.tDrive < sch.fall + c.tAckLow + 2 * sch.gap) ∧
      t.time.tAttempt = s.time.tAttempt ∧ t.params = s.params ∧
      t.tx = s.tx ∧ t.session = s.session ∧ t.cfg = s.cfg ∧ t.pinit = s.pinit

/-! ### The framer -/

/-- `42_framer.md` R250 with `41_bit_timing.md` R179: the bit a sender sends in bit `i` of block `b` is the element
`1 + 10 b + i` of encode's symbol sequence for its frame, after one START. -/
def Obligations.SentBitsFollowEncode : Prop :=
  ∀ (q : SeqRegs) (x : TxRegs), q.blk.toNat < x.len.toNat → x.len.toNat ≤ x.buf.length → q.bitIdx.toNat ≤ 9 →
    (frameSymbols (txBytes x))[0]? = some .start ∧
    (frameSymbols (txBytes x))[1 + 10 * q.blk.toNat + q.bitIdx.toNat]? = some (.bit (txBit q x)) ∧
    (frameSymbols (txBytes x)).length = 1 + 10 * x.len.toNat

/-- `42_framer.md` R252 and the pure part of R253: assemble gives back the frame of a broadcast's symbols as encode sends
them, and the frame of a directed one once its ACK slots are pulled LOW, every block acknowledged. -/
def Obligations.AssembleInvertsEncode : Prop :=
  ∀ (maxFrame : Nat) (h : Byte) (payload : List Byte), payload.length + 1 ≤ maxFrame →
    (headerDst h = 15 →
      assemble maxFrame (frameSymbols (h :: payload)) =
        .frame (h :: payload) (List.replicate (payload.length + 1) true)) ∧
    (headerDst h ≠ 15 →
      assemble maxFrame ((frameSymbols (h :: payload)).mapIdx
          fun k x => if 1 ≤ k ∧ k % 10 = 0 then .bit false else x) =
        .frame (h :: payload) (List.replicate (payload.length + 1) true))

/-- `42_framer.md` R251 at the nominal edge times, and R250's waveform: a frame of `n` blocks takes
`START_TOTAL_NOM + 10 n BIT_NOM`, and with every ACK slot released it is encode's symbols, one nominal bit period each. -/
def Obligations.FrameWaveformIsEncode : Prop :=
  ∀ (c : Config) (frame : List Byte) (blocks : List (Byte × Bool)),
    framePulses c (frame.map fun d => (d, true)) =
      (frameSymbols frame).map (fun x => match x with
        | .start => (⟨c.startLowNom, c.startTotalNom⟩ : Pulse)
        | .bit b => ⟨if b then c.oneLowNom else c.zeroLowNom, c.bitNom⟩) ∧
    totalPeriod (framePulses c blocks) = c.startTotalNom + 10 * blocks.length * c.bitNom

end
end

