-- ==== Sys2Proof/Laws/Decode.lean ====
section
/-! SUPPORT. For each shared operation of `Decode.lean`, what it answers: the bit fields of a head byte, the readers and
the end of an instruction. -/

namespace Sys2Proof

@[simp] theorem lowNibble_nibbles (hi lo : BitVec 4) : lowNibble (nibbles hi lo) = lo := by
  revert hi lo; decide

@[simp] theorem highNibble_nibbles (hi lo : BitVec 4) : highNibble (nibbles hi lo) = hi := by
  revert hi lo; decide

@[simp] theorem flagBit_zero_nibbles (x y : Bool) (lo : BitVec 4) : flagBit (nibbles (flagNibble x y) lo) 0 = x := by
  revert x y lo; decide

@[simp] theorem flagBit_one_nibbles (x y : Bool) (lo : BitVec 4) : flagBit (nibbles (flagNibble x y) lo) 1 = y := by
  revert x y lo; decide

/-- A head byte whose second flag is 0 has zero in flag bits 1 to 3. -/
@[simp] theorem flagNibble_and_fourteen (x : Bool) : flagNibble x false &&& 14 = 0 := by revert x; decide

/-- A head byte has zero in flag bits 2 and 3. -/
@[simp] theorem flagNibble_and_twelve (x y : Bool) : flagNibble x y &&& 12 = 0 := by revert x y; decide

/-- `finish` answers an instruction exactly when only zero padding follows it. -/
theorem finish_eq_ok {i j : Instr} {rest : List Byte} :
    finish i rest = .ok j ↔ (∀ b ∈ rest, b = 0) ∧ i = j := by
  unfold finish
  by_cases h : rest.all (· == 0#8) = true
  · rw [if_pos h]; simp only [List.all_eq_true, beq_iff_eq] at h
    exact ⟨fun e => ⟨h, by injection e⟩, fun e => by rw [e.2]⟩
  · rw [if_neg h]; simp only [List.all_eq_true, beq_iff_eq] at h
    exact ⟨fun e => by injection e, fun e => absurd e.1 h⟩

/-- Zero padding is no part of an instruction. -/
@[simp] theorem finish_zeros (i : Instr) (n : Nat) : finish i (List.replicate n 0#8) = .ok i :=
  finish_eq_ok.mpr ⟨fun _ h => (List.mem_replicate.mp h).2, rfl⟩

@[simp] theorem readByte_cons (b : Byte) (r : List Byte) (k : Byte → List Byte → Decoded) :
    readByte (b :: r) k = k b r := rfl

/-- A natural that has been read is handed on with the bytes after it. -/
theorem readNat_some {bs r : List Byte} {n : Nat} (h : takeNat bs = some (n, r)) (k : Nat → List Byte → Decoded) :
    readNat bs k = k n r := by
  unfold readNat; rw [h]

/-- An instruction comes out of `readNat` only after a natural. -/
theorem readNat_eq_ok {bs : List Byte} {k : Nat → List Byte → Decoded} {i : Instr} (h : readNat bs k = .ok i) :
    ∃ n r, takeNat bs = some (n, r) ∧ k n r = .ok i := by
  unfold readNat at h
  cases ht : takeNat bs with
  | none => rw [ht] at h; injection h
  | some p => rw [ht] at h; exact ⟨p.1, p.2, rfl, h⟩

/-- An instruction comes out of `readByte` only after a byte. -/
theorem readByte_eq_ok {bs : List Byte} {k : Byte → List Byte → Decoded} {i : Instr} (h : readByte bs k = .ok i) :
    ∃ b r, bs = b :: r ∧ k b r = .ok i := by
  cases bs with
  | nil => injection h
  | cons b r => exact ⟨b, r, rfl, h⟩

/-- An instruction comes out of `readPayload` only after its length and that many bytes. -/
theorem readPayload_eq_ok {bs : List Byte} {k : List Byte → List Byte → Decoded} {i : Instr}
    (h : readPayload bs k = .ok i) :
    ∃ n r, takeNat bs = some (n, r) ∧ n ≤ r.length ∧ k (r.take n) (r.drop n) = .ok i := by
  obtain ⟨n, r, ht, hk⟩ := readNat_eq_ok h
  by_cases hn : n ≤ r.length
  · exact ⟨n, r, ht, hn, by simpa only [if_pos hn] using hk⟩
  · simp only [if_neg hn] at hk; injection hk

/-- The blocks of a frame are read back, whatever follows their bytes. -/
theorem takeBlocks_blockBytes (blocks : List (Byte × Bool)) (rest : List Byte) :
    takeBlocks blocks.length (blockBytes blocks ++ rest) = some (blocks, rest) := by
  induction blocks with
  | nil => rfl
  | cons p blocks ih =>
    obtain ⟨d, a⟩ := p
    cases a <;> simp [blockBytes, takeBlocks] <;> rw [show (blocks.flatMap fun p : Byte × Bool =>
      [p.1, (BitVec.ofBool p.2).zeroExtend 8]) = blockBytes blocks from rfl, ih]

end Sys2Proof
end

