-- ==== Sys2Proof/Laws/State.lean ====
section
/-! SUPPORT. For every named update of the state, one lemma per field, so that no proof unfolds an update. -/

namespace Sys2Proof.Machine

/-! ### clearPorts -/

@[simp] theorem clearPorts_params (s : State) : (clearPorts s).params = s.params := rfl
@[simp] theorem clearPorts_cfg (s : State) : (clearPorts s).cfg = s.cfg := rfl
@[simp] theorem clearPorts_session (s : State) : (clearPorts s).session = s.session := rfl
@[simp] theorem clearPorts_seq (s : State) : (clearPorts s).seq = s.seq := rfl
@[simp] theorem clearPorts_line (s : State) : (clearPorts s).line = s.line := rfl
@[simp] theorem clearPorts_time (s : State) : (clearPorts s).time = s.time := rfl
@[simp] theorem clearPorts_rx (s : State) : (clearPorts s).rx = s.rx := rfl
@[simp] theorem clearPorts_tx (s : State) : (clearPorts s).tx = s.tx := rfl
@[simp] theorem clearPorts_pinit (s : State) : (clearPorts s).pinit = s.pinit := rfl
@[simp] theorem clearPorts_input (s : State) : (clearPorts s).input = s.input := rfl
@[simp] theorem clearPorts_events (s : State) : (clearPorts s).events = [] := rfl
@[simp] theorem clearPorts_response (s : State) : (clearPorts s).response = none := rfl

/-! ### respond -/

@[simp] theorem respond_params (r : Response) (s : State) : (respond r s).params = s.params := rfl
@[simp] theorem respond_cfg (r : Response) (s : State) : (respond r s).cfg = s.cfg := rfl
@[simp] theorem respond_session (r : Response) (s : State) : (respond r s).session = s.session := rfl
@[simp] theorem respond_seq (r : Response) (s : State) : (respond r s).seq = s.seq := rfl
@[simp] theorem respond_line (r : Response) (s : State) : (respond r s).line = s.line := rfl
@[simp] theorem respond_time (r : Response) (s : State) : (respond r s).time = s.time := rfl
@[simp] theorem respond_rx (r : Response) (s : State) : (respond r s).rx = s.rx := rfl
@[simp] theorem respond_tx (r : Response) (s : State) : (respond r s).tx = s.tx := rfl
@[simp] theorem respond_pinit (r : Response) (s : State) : (respond r s).pinit = s.pinit := rfl
@[simp] theorem respond_input (r : Response) (s : State) : (respond r s).input = s.input := rfl
@[simp] theorem respond_events (r : Response) (s : State) : (respond r s).events = s.events := rfl
@[simp] theorem respond_response (r : Response) (s : State) : (respond r s).response = some r := rfl

/-! ### emit -/

@[simp] theorem emit_params (e : Event) (s : State) : (emit e s).params = s.params := rfl
@[simp] theorem emit_cfg (e : Event) (s : State) : (emit e s).cfg = s.cfg := rfl
@[simp] theorem emit_session (e : Event) (s : State) : (emit e s).session = s.session := rfl
@[simp] theorem emit_seq (e : Event) (s : State) : (emit e s).seq = s.seq := rfl
@[simp] theorem emit_line (e : Event) (s : State) : (emit e s).line = s.line := rfl
@[simp] theorem emit_time (e : Event) (s : State) : (emit e s).time = s.time := rfl
@[simp] theorem emit_rx (e : Event) (s : State) : (emit e s).rx = s.rx := rfl
@[simp] theorem emit_tx (e : Event) (s : State) : (emit e s).tx = s.tx := rfl
@[simp] theorem emit_pinit (e : Event) (s : State) : (emit e s).pinit = s.pinit := rfl
@[simp] theorem emit_input (e : Event) (s : State) : (emit e s).input = s.input := rfl
@[simp] theorem emit_events (e : Event) (s : State) : (emit e s).events = s.events ++ [e] := rfl
@[simp] theorem emit_response (e : Event) (s : State) : (emit e s).response = s.response := rfl

/-! ### goTo -/

@[simp] theorem goTo_params (st : EngineState) (role : Role) (s : State) : (goTo st role s).params = s.params := rfl
@[simp] theorem goTo_cfg (st : EngineState) (role : Role) (s : State) : (goTo st role s).cfg = s.cfg := rfl
@[simp] theorem goTo_session (st : EngineState) (role : Role) (s : State) :
    (goTo st role s).session = s.session := rfl
@[simp] theorem goTo_seq (st : EngineState) (role : Role) (s : State) :
    (goTo st role s).seq = { s.seq with st := st, role := role } := rfl
@[simp] theorem goTo_line (st : EngineState) (role : Role) (s : State) : (goTo st role s).line = s.line := rfl
@[simp] theorem goTo_time (st : EngineState) (role : Role) (s : State) : (goTo st role s).time = s.time := rfl
@[simp] theorem goTo_rx (st : EngineState) (role : Role) (s : State) : (goTo st role s).rx = s.rx := rfl
@[simp] theorem goTo_tx (st : EngineState) (role : Role) (s : State) : (goTo st role s).tx = s.tx := rfl
@[simp] theorem goTo_pinit (st : EngineState) (role : Role) (s : State) : (goTo st role s).pinit = s.pinit := rfl
@[simp] theorem goTo_input (st : EngineState) (role : Role) (s : State) : (goTo st role s).input = s.input := rfl
@[simp] theorem goTo_events (st : EngineState) (role : Role) (s : State) : (goTo st role s).events = s.events := rfl
@[simp] theorem goTo_response (st : EngineState) (role : Role) (s : State) :
    (goTo st role s).response = s.response := rfl

/-! ### setPhase -/

@[simp] theorem setPhase_params (ph : Phase) (s : State) : (setPhase ph s).params = s.params := rfl
@[simp] theorem setPhase_cfg (ph : Phase) (s : State) : (setPhase ph s).cfg = s.cfg := rfl
@[simp] theorem setPhase_session (ph : Phase) (s : State) : (setPhase ph s).session = s.session := rfl
@[simp] theorem setPhase_seq (ph : Phase) (s : State) : (setPhase ph s).seq = { s.seq with ph := ph } := rfl
@[simp] theorem setPhase_line (ph : Phase) (s : State) : (setPhase ph s).line = s.line := rfl
@[simp] theorem setPhase_time (ph : Phase) (s : State) : (setPhase ph s).time = s.time := rfl
@[simp] theorem setPhase_rx (ph : Phase) (s : State) : (setPhase ph s).rx = s.rx := rfl
@[simp] theorem setPhase_tx (ph : Phase) (s : State) : (setPhase ph s).tx = s.tx := rfl
@[simp] theorem setPhase_pinit (ph : Phase) (s : State) : (setPhase ph s).pinit = s.pinit := rfl
@[simp] theorem setPhase_input (ph : Phase) (s : State) : (setPhase ph s).input = s.input := rfl
@[simp] theorem setPhase_events (ph : Phase) (s : State) : (setPhase ph s).events = s.events := rfl
@[simp] theorem setPhase_response (ph : Phase) (s : State) : (setPhase ph s).response = s.response := rfl

/-! ### enterAwaitStart -/

@[simp] theorem enterAwaitStart_params (now : Nat) (s : State) : (enterAwaitStart now s).params = s.params := rfl
@[simp] theorem enterAwaitStart_cfg (now : Nat) (s : State) : (enterAwaitStart now s).cfg = s.cfg := rfl
@[simp] theorem enterAwaitStart_session (now : Nat) (s : State) : (enterAwaitStart now s).session = s.session := rfl
@[simp] theorem enterAwaitStart_seq (now : Nat) (s : State) :
    (enterAwaitStart now s).seq = { s.seq with st := .awaitStart, role := .rx, ph := .driveLowEdge } := rfl
@[simp] theorem enterAwaitStart_line (now : Nat) (s : State) : (enterAwaitStart now s).line = s.line := rfl
@[simp] theorem enterAwaitStart_time (now : Nat) (s : State) :
    (enterAwaitStart now s).time = { s.time with tFall := now } := rfl
@[simp] theorem enterAwaitStart_rx (now : Nat) (s : State) : (enterAwaitStart now s).rx = s.rx := rfl
@[simp] theorem enterAwaitStart_tx (now : Nat) (s : State) :
    (enterAwaitStart now s).tx = { s.tx with postSuccess := false } := rfl
@[simp] theorem enterAwaitStart_pinit (now : Nat) (s : State) : (enterAwaitStart now s).pinit = s.pinit := rfl
@[simp] theorem enterAwaitStart_input (now : Nat) (s : State) : (enterAwaitStart now s).input = s.input := rfl
@[simp] theorem enterAwaitStart_events (now : Nat) (s : State) : (enterAwaitStart now s).events = s.events := rfl
@[simp] theorem enterAwaitStart_response (now : Nat) (s : State) :
    (enterAwaitStart now s).response = s.response := rfl

/-! ### clearRxRecord -/

@[simp] theorem clearRxRecord_params (s : State) : (clearRxRecord s).params = s.params := rfl
@[simp] theorem clearRxRecord_cfg (s : State) : (clearRxRecord s).cfg = s.cfg := rfl
@[simp] theorem clearRxRecord_session (s : State) : (clearRxRecord s).session = s.session := rfl
@[simp] theorem clearRxRecord_seq (s : State) : (clearRxRecord s).seq = s.seq := rfl
@[simp] theorem clearRxRecord_line (s : State) : (clearRxRecord s).line = s.line := rfl
@[simp] theorem clearRxRecord_time (s : State) : (clearRxRecord s).time = s.time := rfl
@[simp] theorem clearRxRecord_rx (s : State) :
    (clearRxRecord s).rx = { s.rx with len := 0, ackMe := false, ack := clearAcks s.params } := rfl
@[simp] theorem clearRxRecord_tx (s : State) : (clearRxRecord s).tx = s.tx := rfl
@[simp] theorem clearRxRecord_pinit (s : State) : (clearRxRecord s).pinit = s.pinit := rfl
@[simp] theorem clearRxRecord_input (s : State) : (clearRxRecord s).input = s.input := rfl
@[simp] theorem clearRxRecord_events (s : State) : (clearRxRecord s).events = s.events := rfl
@[simp] theorem clearRxRecord_response (s : State) : (clearRxRecord s).response = s.response := rfl

/-! ### armPoll -/

@[simp] theorem armPoll_params (now : Nat) (c : LogAddr) (s : State) : (armPoll now c s).params = s.params := rfl
@[simp] theorem armPoll_cfg (now : Nat) (c : LogAddr) (s : State) : (armPoll now c s).cfg = s.cfg := rfl
@[simp] theorem armPoll_session (now : Nat) (c : LogAddr) (s : State) : (armPoll now c s).session = s.session := rfl
@[simp] theorem armPoll_seq (now : Nat) (c : LogAddr) (s : State) : (armPoll now c s).seq = s.seq := rfl
@[simp] theorem armPoll_line (now : Nat) (c : LogAddr) (s : State) : (armPoll now c s).line = s.line := rfl
@[simp] theorem armPoll_time (now : Nat) (c : LogAddr) (s : State) :
    (armPoll now c s).time = { s.time with tAttempt := now } := rfl
@[simp] theorem armPoll_rx (now : Nat) (c : LogAddr) (s : State) : (armPoll now c s).rx = s.rx := rfl
@[simp] theorem armPoll_tx (now : Nat) (c : LogAddr) (s : State) :
    (armPoll now c s).tx =
      { s.tx with
      buf := storeFrame [headerByte c c] s.tx.buf, len := 1, kind := .poll, pending := true, attempt := 0
      sft := armedSft s.params s.tx.postSuccess, ack := clearAcks s.params } := rfl
@[simp] theorem armPoll_pinit (now : Nat) (c : LogAddr) (s : State) : (armPoll now c s).pinit = s.pinit := rfl
@[simp] theorem armPoll_input (now : Nat) (c : LogAddr) (s : State) : (armPoll now c s).input = s.input := rfl
@[simp] theorem armPoll_events (now : Nat) (c : LogAddr) (s : State) : (armPoll now c s).events = s.events := rfl
@[simp] theorem armPoll_response (now : Nat) (c : LogAddr) (s : State) :
    (armPoll now c s).response = s.response := rfl

/-! ### allocFail -/

@[simp] theorem allocFail_params (s : State) : (allocFail s).params = s.params := rfl
@[simp] theorem allocFail_cfg (s : State) : (allocFail s).cfg = s.cfg := rfl
@[simp] theorem allocFail_session (s : State) : (allocFail s).session = { s.session with alloc := .failed } := rfl
@[simp] theorem allocFail_seq (s : State) : (allocFail s).seq = s.seq := rfl
@[simp] theorem allocFail_line (s : State) : (allocFail s).line = s.line := rfl
@[simp] theorem allocFail_time (s : State) : (allocFail s).time = s.time := rfl
@[simp] theorem allocFail_rx (s : State) : (allocFail s).rx = s.rx := rfl
@[simp] theorem allocFail_tx (s : State) : (allocFail s).tx = { s.tx with pending := false } := rfl
@[simp] theorem allocFail_pinit (s : State) : (allocFail s).pinit = s.pinit := rfl
@[simp] theorem allocFail_input (s : State) : (allocFail s).input = s.input := rfl
@[simp] theorem allocFail_events (s : State) : (allocFail s).events = s.events ++ [.allocFailed] := rfl
@[simp] theorem allocFail_response (s : State) : (allocFail s).response = s.response := rfl

/-! ### rearm -/

@[simp] theorem rearm_params (now : Nat) (s : State) : (rearm now s).params = s.params := rfl
@[simp] theorem rearm_cfg (now : Nat) (s : State) : (rearm now s).cfg = s.cfg := rfl
@[simp] theorem rearm_session (now : Nat) (s : State) : (rearm now s).session = s.session := rfl
@[simp] theorem rearm_seq (now : Nat) (s : State) : (rearm now s).seq = s.seq := rfl
@[simp] theorem rearm_line (now : Nat) (s : State) : (rearm now s).line = s.line := rfl
@[simp] theorem rearm_time (now : Nat) (s : State) : (rearm now s).time = { s.time with tAttempt := now } := rfl
@[simp] theorem rearm_rx (now : Nat) (s : State) : (rearm now s).rx = s.rx := rfl
@[simp] theorem rearm_tx (now : Nat) (s : State) :
    (rearm now s).tx = { s.tx with sft := s.params.sftBase + s.tx.attempt * s.params.sftStep } := rfl
@[simp] theorem rearm_pinit (now : Nat) (s : State) : (rearm now s).pinit = s.pinit := rfl
@[simp] theorem rearm_input (now : Nat) (s : State) : (rearm now s).input = s.input := rfl
@[simp] theorem rearm_events (now : Nat) (s : State) : (rearm now s).events = s.events := rfl
@[simp] theorem rearm_response (now : Nat) (s : State) : (rearm now s).response = s.response := rfl

/-! ### claim -/

@[simp] theorem claim_params (c : LogAddr) (s : State) : (claim c s).params = s.params := rfl
@[simp] theorem claim_cfg (c : LogAddr) (s : State) : (claim c s).cfg = s.cfg := rfl
@[simp] theorem claim_session (c : LogAddr) (s : State) :
    (claim c s).session = { s.session with la := c, alloc := .claimed } := rfl
@[simp] theorem claim_seq (c : LogAddr) (s : State) : (claim c s).seq = s.seq := rfl
@[simp] theorem claim_line (c : LogAddr) (s : State) : (claim c s).line = s.line := rfl
@[simp] theorem claim_time (c : LogAddr) (s : State) : (claim c s).time = s.time := rfl
@[simp] theorem claim_rx (c : LogAddr) (s : State) : (claim c s).rx = s.rx := rfl
@[simp] theorem claim_tx (c : LogAddr) (s : State) : (claim c s).tx = { s.tx with pending := false } := rfl
@[simp] theorem claim_pinit (c : LogAddr) (s : State) : (claim c s).pinit = s.pinit := rfl
@[simp] theorem claim_input (c : LogAddr) (s : State) : (claim c s).input = s.input := rfl
@[simp] theorem claim_events (c : LogAddr) (s : State) : (claim c s).events = s.events ++ [.ready c] := rfl
@[simp] theorem claim_response (c : LogAddr) (s : State) : (claim c s).response = s.response := rfl

/-! ### completeTx -/

@[simp] theorem completeTx_params (ok : Bool) (o : TxOutcome) (s : State) :
    (completeTx ok o s).params = s.params := rfl
@[simp] theorem completeTx_cfg (ok : Bool) (o : TxOutcome) (s : State) : (completeTx ok o s).cfg = s.cfg := rfl
@[simp] theorem completeTx_session (ok : Bool) (o : TxOutcome) (s : State) :
    (completeTx ok o s).session = s.session := rfl
@[simp] theorem completeTx_seq (ok : Bool) (o : TxOutcome) (s : State) : (completeTx ok o s).seq = s.seq := rfl
@[simp] theorem completeTx_line (ok : Bool) (o : TxOutcome) (s : State) : (completeTx ok o s).line = s.line := rfl
@[simp] theorem completeTx_time (ok : Bool) (o : TxOutcome) (s : State) : (completeTx ok o s).time = s.time := rfl
@[simp] theorem completeTx_rx (ok : Bool) (o : TxOutcome) (s : State) : (completeTx ok o s).rx = s.rx := rfl
@[simp] theorem completeTx_tx (ok : Bool) (o : TxOutcome) (s : State) :
    (completeTx ok o s).tx = { s.tx with pending := false } := rfl
@[simp] theorem completeTx_pinit (ok : Bool) (o : TxOutcome) (s : State) : (completeTx ok o s).pinit = s.pinit := rfl
@[simp] theorem completeTx_input (ok : Bool) (o : TxOutcome) (s : State) : (completeTx ok o s).input = s.input := rfl
@[simp] theorem completeTx_events (ok : Bool) (o : TxOutcome) (s : State) :
    (completeTx ok o s).events = s.events ++ [.txComplete (txBytes s.tx) (txAcks s.tx) ok o] := rfl
@[simp] theorem completeTx_response (ok : Bool) (o : TxOutcome) (s : State) :
    (completeTx ok o s).response = s.response := rfl

/-! ### countAttempt -/

@[simp] theorem countAttempt_params (s : State) : (countAttempt s).params = s.params := rfl
@[simp] theorem countAttempt_cfg (s : State) : (countAttempt s).cfg = s.cfg := rfl
@[simp] theorem countAttempt_session (s : State) : (countAttempt s).session = s.session := rfl
@[simp] theorem countAttempt_seq (s : State) : (countAttempt s).seq = s.seq := rfl
@[simp] theorem countAttempt_line (s : State) : (countAttempt s).line = s.line := rfl
@[simp] theorem countAttempt_time (s : State) : (countAttempt s).time = s.time := rfl
@[simp] theorem countAttempt_rx (s : State) : (countAttempt s).rx = s.rx := rfl
@[simp] theorem countAttempt_tx (s : State) : (countAttempt s).tx = { s.tx with attempt := s.tx.attempt + 1 } := rfl
@[simp] theorem countAttempt_pinit (s : State) : (countAttempt s).pinit = s.pinit := rfl
@[simp] theorem countAttempt_input (s : State) : (countAttempt s).input = s.input := rfl
@[simp] theorem countAttempt_events (s : State) : (countAttempt s).events = s.events := rfl
@[simp] theorem countAttempt_response (s : State) : (countAttempt s).response = s.response := rfl

/-! ### epilogue -/

@[simp] theorem epilogue_params (p : Sample) (s : State) : (epilogue p s).params = s.params := rfl
@[simp] theorem epilogue_cfg (p : Sample) (s : State) : (epilogue p s).cfg = s.cfg := rfl
@[simp] theorem epilogue_session (p : Sample) (s : State) : (epilogue p s).session = s.session := rfl
@[simp] theorem epilogue_seq (p : Sample) (s : State) : (epilogue p s).seq = s.seq := rfl
@[simp] theorem epilogue_line (p : Sample) (s : State) :
    (epilogue p s).line = { s.line with lastLine := if p.valid then p.lineIn else s.line.lastLine } := rfl
@[simp] theorem epilogue_time (p : Sample) (s : State) : (epilogue p s).time = { s.time with tLast := p.now } := rfl
@[simp] theorem epilogue_rx (p : Sample) (s : State) : (epilogue p s).rx = s.rx := rfl
@[simp] theorem epilogue_tx (p : Sample) (s : State) : (epilogue p s).tx = s.tx := rfl
@[simp] theorem epilogue_pinit (p : Sample) (s : State) : (epilogue p s).pinit = s.pinit := rfl
@[simp] theorem epilogue_input (p : Sample) (s : State) : (epilogue p s).input = s.input := rfl
@[simp] theorem epilogue_events (p : Sample) (s : State) : (epilogue p s).events = s.events := rfl
@[simp] theorem epilogue_response (p : Sample) (s : State) : (epilogue p s).response = s.response := rfl

/-! ### resetRegs -/

@[simp] theorem resetRegs_params (now0 : Nat) (s : State) : (resetRegs now0 s).params = s.params := rfl
@[simp] theorem resetRegs_cfg (now0 : Nat) (s : State) :
    (resetRegs now0 s).cfg = { phys := 0xFFFF, devType := 0xFF, prom := false } := rfl
@[simp] theorem resetRegs_session (now0 : Nat) (s : State) :
    (resetRegs now0 s).session = { alloc := .uninit, la := 0xF, candIdx := 0 } := rfl
@[simp] theorem resetRegs_seq (now0 : Nat) (s : State) :
    (resetRegs now0 s).seq = { st := .idle, ph := .driveLowEdge, role := .none, bitIdx := 0, blk := 0 } := rfl
@[simp] theorem resetRegs_line (now0 : Nat) (s : State) :
    (resetRegs now0 s).line = { driveLow := false, tDrive := now0, lastLine := false } := rfl
@[simp] theorem resetRegs_time (now0 : Nat) (s : State) :
    (resetRegs now0 s).time = { tFall := now0, tFree := now0, tLast := now0, tAttempt := now0 } := rfl
@[simp] theorem resetRegs_rx (now0 : Nat) (s : State) :
    (resetRegs now0 s).rx =
      { shift := 0, eom := false, buf := List.replicate s.params.maxFrame 0, ack := clearAcks s.params,
        len := 0, ackMe := false } := rfl
@[simp] theorem resetRegs_tx (now0 : Nat) (s : State) :
    (resetRegs now0 s).tx =
      { buf := List.replicate s.params.maxFrame 0, len := 0, ack := clearAcks s.params, pending := false,
        kind := .host, attempt := 0, sft := s.params.sftBase, outcome := .none, postSuccess := false } := rfl
@[simp] theorem resetRegs_pinit (now0 : Nat) (s : State) :
    (resetRegs now0 s).pinit = { valid := false, phys := 0, devType := 0, prom := false } := rfl
@[simp] theorem resetRegs_input (now0 : Nat) (s : State) : (resetRegs now0 s).input = s.input := rfl
@[simp] theorem resetRegs_events (now0 : Nat) (s : State) : (resetRegs now0 s).events = s.events := rfl
@[simp] theorem resetRegs_response (now0 : Nat) (s : State) : (resetRegs now0 s).response = s.response := rfl

/-! ### advanceIdx -/

@[simp] theorem advanceIdx_params (s : State) : (advanceIdx s).params = s.params := rfl
@[simp] theorem advanceIdx_cfg (s : State) : (advanceIdx s).cfg = s.cfg := rfl
@[simp] theorem advanceIdx_session (s : State) :
    (advanceIdx s).session = { s.session with candIdx := s.session.candIdx + 1 } := rfl
@[simp] theorem advanceIdx_seq (s : State) : (advanceIdx s).seq = s.seq := rfl
@[simp] theorem advanceIdx_line (s : State) : (advanceIdx s).line = s.line := rfl
@[simp] theorem advanceIdx_time (s : State) : (advanceIdx s).time = s.time := rfl
@[simp] theorem advanceIdx_rx (s : State) : (advanceIdx s).rx = s.rx := rfl
@[simp] theorem advanceIdx_tx (s : State) : (advanceIdx s).tx = s.tx := rfl
@[simp] theorem advanceIdx_pinit (s : State) : (advanceIdx s).pinit = s.pinit := rfl
@[simp] theorem advanceIdx_input (s : State) : (advanceIdx s).input = s.input := rfl
@[simp] theorem advanceIdx_events (s : State) : (advanceIdx s).events = s.events := rfl
@[simp] theorem advanceIdx_response (s : State) : (advanceIdx s).response = s.response := rfl

/-! ### recordOutcome -/

@[simp] theorem recordOutcome_params (o : TxOutcome) (s : State) : (recordOutcome o s).params = s.params := rfl
@[simp] theorem recordOutcome_cfg (o : TxOutcome) (s : State) : (recordOutcome o s).cfg = s.cfg := rfl
@[simp] theorem recordOutcome_session (o : TxOutcome) (s : State) : (recordOutcome o s).session = s.session := rfl
@[simp] theorem recordOutcome_seq (o : TxOutcome) (s : State) : (recordOutcome o s).seq = s.seq := rfl
@[simp] theorem recordOutcome_line (o : TxOutcome) (s : State) : (recordOutcome o s).line = s.line := rfl
@[simp] theorem recordOutcome_time (o : TxOutcome) (s : State) : (recordOutcome o s).time = s.time := rfl
@[simp] theorem recordOutcome_rx (o : TxOutcome) (s : State) : (recordOutcome o s).rx = s.rx := rfl
@[simp] theorem recordOutcome_tx (o : TxOutcome) (s : State) :
    (recordOutcome o s).tx = { s.tx with outcome := o, postSuccess := o == TxOutcome.success } := rfl
@[simp] theorem recordOutcome_pinit (o : TxOutcome) (s : State) : (recordOutcome o s).pinit = s.pinit := rfl
@[simp] theorem recordOutcome_input (o : TxOutcome) (s : State) : (recordOutcome o s).input = s.input := rfl
@[simp] theorem recordOutcome_events (o : TxOutcome) (s : State) : (recordOutcome o s).events = s.events := rfl
@[simp] theorem recordOutcome_response (o : TxOutcome) (s : State) : (recordOutcome o s).response = s.response := rfl

/-! ### releaseSession -/

@[simp] theorem releaseSession_params (s : State) : (releaseSession s).params = s.params := rfl
@[simp] theorem releaseSession_cfg (s : State) :
    (releaseSession s).cfg = { phys := s.pinit.phys, devType := s.pinit.devType, prom := s.pinit.prom } := rfl
@[simp] theorem releaseSession_session (s : State) :
    (releaseSession s).session = { s.session with la := 0xF, candIdx := 0 } := rfl
@[simp] theorem releaseSession_seq (s : State) :
    (releaseSession s).seq = { s.seq with st := .idle, role := .none } := rfl
@[simp] theorem releaseSession_line (s : State) : (releaseSession s).line = s.line := rfl
@[simp] theorem releaseSession_time (s : State) : (releaseSession s).time = s.time := rfl
@[simp] theorem releaseSession_rx (s : State) : (releaseSession s).rx = s.rx := rfl
@[simp] theorem releaseSession_tx (s : State) : (releaseSession s).tx = { s.tx with pending := false } := rfl
@[simp] theorem releaseSession_pinit (s : State) : (releaseSession s).pinit = { s.pinit with valid := false } := rfl
@[simp] theorem releaseSession_input (s : State) : (releaseSession s).input = s.input := rfl
@[simp] theorem releaseSession_events (s : State) : (releaseSession s).events = s.events := rfl
@[simp] theorem releaseSession_response (s : State) : (releaseSession s).response = s.response := rfl

/-! ### beginPolling -/

@[simp] theorem beginPolling_params (s : State) : (beginPolling s).params = s.params := rfl
@[simp] theorem beginPolling_cfg (s : State) : (beginPolling s).cfg = s.cfg := rfl
@[simp] theorem beginPolling_session (s : State) :
    (beginPolling s).session = { s.session with alloc := .polling } := rfl
@[simp] theorem beginPolling_seq (s : State) : (beginPolling s).seq = s.seq := rfl
@[simp] theorem beginPolling_line (s : State) : (beginPolling s).line = s.line := rfl
@[simp] theorem beginPolling_time (s : State) : (beginPolling s).time = s.time := rfl
@[simp] theorem beginPolling_rx (s : State) : (beginPolling s).rx = s.rx := rfl
@[simp] theorem beginPolling_tx (s : State) : (beginPolling s).tx = s.tx := rfl
@[simp] theorem beginPolling_pinit (s : State) : (beginPolling s).pinit = s.pinit := rfl
@[simp] theorem beginPolling_input (s : State) : (beginPolling s).input = s.input := rfl
@[simp] theorem beginPolling_events (s : State) : (beginPolling s).events = s.events := rfl
@[simp] theorem beginPolling_response (s : State) : (beginPolling s).response = s.response := rfl

/-! ### stampFree -/

@[simp] theorem stampFree_params (p : Sample) (s : State) :
    (stampFree p s).params = s.params := by
  unfold stampFree; split <;> rfl
@[simp] theorem stampFree_cfg (p : Sample) (s : State) :
    (stampFree p s).cfg = s.cfg := by
  unfold stampFree; split <;> rfl
@[simp] theorem stampFree_session (p : Sample) (s : State) :
    (stampFree p s).session = s.session := by
  unfold stampFree; split <;> rfl
@[simp] theorem stampFree_seq (p : Sample) (s : State) :
    (stampFree p s).seq = s.seq := by
  unfold stampFree; split <;> rfl
@[simp] theorem stampFree_line (p : Sample) (s : State) :
    (stampFree p s).line = s.line := by
  unfold stampFree; split <;> rfl
@[simp] theorem stampFree_time (p : Sample) (s : State) :
    (stampFree p s).time = if p.rise then { s.time with tFree := p.now } else s.time := by
  unfold stampFree; split <;> rfl
@[simp] theorem stampFree_rx (p : Sample) (s : State) :
    (stampFree p s).rx = s.rx := by
  unfold stampFree; split <;> rfl
@[simp] theorem stampFree_tx (p : Sample) (s : State) :
    (stampFree p s).tx = s.tx := by
  unfold stampFree; split <;> rfl
@[simp] theorem stampFree_pinit (p : Sample) (s : State) :
    (stampFree p s).pinit = s.pinit := by
  unfold stampFree; split <;> rfl
@[simp] theorem stampFree_input (p : Sample) (s : State) :
    (stampFree p s).input = s.input := by
  unfold stampFree; split <;> rfl
@[simp] theorem stampFree_events (p : Sample) (s : State) :
    (stampFree p s).events = s.events := by
  unfold stampFree; split <;> rfl
@[simp] theorem stampFree_response (p : Sample) (s : State) :
    (stampFree p s).response = s.response := by
  unfold stampFree; split <;> rfl

/-! ### setDrive -/

@[simp] theorem setDrive_params (now : Nat) (v : Bool) (s : State) :
    (setDrive now v s).params = s.params := by
  unfold setDrive; split <;> rfl
@[simp] theorem setDrive_cfg (now : Nat) (v : Bool) (s : State) :
    (setDrive now v s).cfg = s.cfg := by
  unfold setDrive; split <;> rfl
@[simp] theorem setDrive_session (now : Nat) (v : Bool) (s : State) :
    (setDrive now v s).session = s.session := by
  unfold setDrive; split <;> rfl
@[simp] theorem setDrive_seq (now : Nat) (v : Bool) (s : State) :
    (setDrive now v s).seq = s.seq := by
  unfold setDrive; split <;> rfl
@[simp] theorem setDrive_line (now : Nat) (v : Bool) (s : State) :
    (setDrive now v s).line = driven now v s.line := by
  unfold setDrive driven; split <;> rfl
@[simp] theorem setDrive_time (now : Nat) (v : Bool) (s : State) :
    (setDrive now v s).time = s.time := by
  unfold setDrive; split <;> rfl
@[simp] theorem setDrive_rx (now : Nat) (v : Bool) (s : State) :
    (setDrive now v s).rx = s.rx := by
  unfold setDrive; split <;> rfl
@[simp] theorem setDrive_tx (now : Nat) (v : Bool) (s : State) :
    (setDrive now v s).tx = s.tx := by
  unfold setDrive; split <;> rfl
@[simp] theorem setDrive_pinit (now : Nat) (v : Bool) (s : State) :
    (setDrive now v s).pinit = s.pinit := by
  unfold setDrive; split <;> rfl
@[simp] theorem setDrive_input (now : Nat) (v : Bool) (s : State) :
    (setDrive now v s).input = s.input := by
  unfold setDrive; split <;> rfl
@[simp] theorem setDrive_events (now : Nat) (v : Bool) (s : State) :
    (setDrive now v s).events = s.events := by
  unfold setDrive; split <;> rfl
@[simp] theorem setDrive_response (now : Nat) (v : Bool) (s : State) :
    (setDrive now v s).response = s.response := by
  unfold setDrive; split <;> rfl

/-! ### startBit -/

@[simp] theorem startBit_params (now : Nat) (st : EngineState) (s : State) :
    (startBit now st s).params = s.params := by
  simp [startBit]
@[simp] theorem startBit_cfg (now : Nat) (st : EngineState) (s : State) :
    (startBit now st s).cfg = s.cfg := by
  simp [startBit]
@[simp] theorem startBit_session (now : Nat) (st : EngineState) (s : State) :
    (startBit now st s).session = s.session := by
  simp [startBit]
@[simp] theorem startBit_seq (now : Nat) (st : EngineState) (s : State) :
    (startBit now st s).seq = { s.seq with ph := .driveLowEdge, st := st } := by
  simp [startBit]
@[simp] theorem startBit_line (now : Nat) (st : EngineState) (s : State) :
    (startBit now st s).line = driven now true s.line := by
  simp [startBit]
@[simp] theorem startBit_time (now : Nat) (st : EngineState) (s : State) :
    (startBit now st s).time = { s.time with tFall := now } := by
  simp [startBit]
@[simp] theorem startBit_rx (now : Nat) (st : EngineState) (s : State) :
    (startBit now st s).rx = s.rx := by
  simp [startBit]
@[simp] theorem startBit_tx (now : Nat) (st : EngineState) (s : State) :
    (startBit now st s).tx = s.tx := by
  simp [startBit]
@[simp] theorem startBit_pinit (now : Nat) (st : EngineState) (s : State) :
    (startBit now st s).pinit = s.pinit := by
  simp [startBit]
@[simp] theorem startBit_input (now : Nat) (st : EngineState) (s : State) :
    (startBit now st s).input = s.input := by
  simp [startBit]
@[simp] theorem startBit_events (now : Nat) (st : EngineState) (s : State) :
    (startBit now st s).events = s.events := by
  simp [startBit]
@[simp] theorem startBit_response (now : Nat) (st : EngineState) (s : State) :
    (startBit now st s).response = s.response := by
  simp [startBit]

/-! ### rxError -/

@[simp] theorem rxError_params (now : Nat) (s : State) : (rxError now s).params = s.params := by
  simp [rxError]
@[simp] theorem rxError_cfg (now : Nat) (s : State) : (rxError now s).cfg = s.cfg := by
  simp [rxError]
@[simp] theorem rxError_session (now : Nat) (s : State) : (rxError now s).session = s.session := by
  simp [rxError]
@[simp] theorem rxError_seq (now : Nat) (s : State) :
    (rxError now s).seq = { s.seq with st := .idle, role := .none, ph := .driveLowEdge } := by
  simp [rxError]
@[simp] theorem rxError_line (now : Nat) (s : State) :
    (rxError now s).line = driven now false s.line := by
  simp [rxError]
@[simp] theorem rxError_time (now : Nat) (s : State) : (rxError now s).time = s.time := by
  simp [rxError]
@[simp] theorem rxError_rx (now : Nat) (s : State) : (rxError now s).rx = s.rx := by
  simp [rxError]
@[simp] theorem rxError_tx (now : Nat) (s : State) : (rxError now s).tx = s.tx := by
  simp [rxError]
@[simp] theorem rxError_pinit (now : Nat) (s : State) : (rxError now s).pinit = s.pinit := by
  simp [rxError]
@[simp] theorem rxError_input (now : Nat) (s : State) : (rxError now s).input = s.input := by
  simp [rxError]
@[simp] theorem rxError_events (now : Nat) (s : State) : (rxError now s).events = s.events := by
  simp [rxError]
@[simp] theorem rxError_response (now : Nat) (s : State) :
    (rxError now s).response = s.response := by
  simp [rxError]

end Sys2Proof.Machine
end

