-- ==== Sys2Proof/Laws/Ops.lean ====
section
/-! SUPPORT. For each shared operation of `Machine/Ops.lean` that branches, one lemma that says once everything it can
do, and for the handlers the registers none of them writes. -/

namespace Sys2Proof.Machine

/-! ### Next candidate -/

/-- NextCandidate either fails the allocation at the end of the list or arms the next candidate (R304). -/
theorem nextCandidate_cases (now : Nat) (s : State) :
    ((s.params.candidatesFor s.cfg.devType)[(s.session.candIdx + 1).toNat]? = none ∧
      nextCandidate now s = allocFail (advanceIdx s)) ∨
    ∃ c, (s.params.candidatesFor s.cfg.devType)[(s.session.candIdx + 1).toNat]? = some c ∧
      c ∈ s.params.candidatesFor s.cfg.devType ∧ nextCandidate now s = armPoll now c (advanceIdx s) := by
  cases h : (s.params.candidatesFor s.cfg.devType)[(s.session.candIdx + 1).toNat]? with
  | none => exact .inl ⟨rfl, by simp only [nextCandidate, advanceIdx_params, advanceIdx_cfg, advanceIdx_session, h]⟩
  | some c => exact .inr ⟨c, rfl, List.mem_of_getElem? h, by simp only [nextCandidate, advanceIdx_params, advanceIdx_cfg, advanceIdx_session, h]⟩

/-! ### End of an attempt -/

/-- Everything AttemptEnd can do (R298): advance to the next candidate, claim, complete, or arm a retry. -/
theorem attemptEnd_cases (now : Nat) (o : TxOutcome) (s : State) :
    (s.tx.kind = .poll ∧ o = .success ∧ attemptEnd now o s = nextCandidate now (recordOutcome o s)) ∨
    (s.tx.kind = .poll ∧ o = .nak ∧
      attemptEnd now o s = claim (lowNibble (txHeader s.tx)) (recordOutcome o s)) ∨
    (s.tx.kind = .poll ∧ o ≠ .success ∧ o ≠ .nak ∧ s.params.maxAttempts ≤ s.tx.attempt + 1 ∧
      attemptEnd now o s = nextCandidate now (countAttempt (recordOutcome o s))) ∨
    (s.tx.kind = .host ∧ o = .success ∧ attemptEnd now o s = completeTx true .success (recordOutcome o s)) ∨
    (s.tx.kind = .host ∧ o ≠ .success ∧ s.params.maxAttempts ≤ s.tx.attempt + 1 ∧
      attemptEnd now o s = completeTx false o (countAttempt (recordOutcome o s))) ∨
    (o ≠ .success ∧ (s.tx.kind = .poll → o ≠ .nak) ∧ s.tx.attempt + 1 < s.params.maxAttempts ∧
      attemptEnd now o s = rearm now (countAttempt (recordOutcome o s))) := by
  by_cases hs : o = .success <;> by_cases hn : o = .nak <;>
    by_cases hm : s.params.maxAttempts ≤ s.tx.attempt + 1 <;> cases hk : s.tx.kind <;>
    simp_all [attemptEnd, txHeader]

/-- The registers AttemptEnd never writes (R298: "State written"). -/
theorem attemptEnd_frame (now : Nat) (o : TxOutcome) (s : State) :
    (attemptEnd now o s).params = s.params ∧ (attemptEnd now o s).cfg = s.cfg ∧
    (attemptEnd now o s).seq = s.seq ∧ (attemptEnd now o s).line = s.line ∧
    (attemptEnd now o s).rx = s.rx ∧ (attemptEnd now o s).pinit = s.pinit ∧
    (attemptEnd now o s).input = s.input ∧ (attemptEnd now o s).response = s.response ∧
    (attemptEnd now o s).time.tFall = s.time.tFall ∧ (attemptEnd now o s).time.tFree = s.time.tFree ∧
    (attemptEnd now o s).time.tLast = s.time.tLast := by
  rcases attemptEnd_cases now o s with ⟨-, -, h⟩ | ⟨-, -, h⟩ | ⟨-, -, -, -, h⟩ | ⟨-, -, h⟩ | ⟨-, -, -, h⟩ |
    ⟨-, -, -, h⟩
  · rcases nextCandidate_cases now (recordOutcome o s) with ⟨-, h'⟩ | ⟨c, -, -, h'⟩ <;>
      simp [h, h']
  · simp [h]
  · rcases nextCandidate_cases now (countAttempt (recordOutcome o s)) with ⟨-, h'⟩ | ⟨c, -, -, h'⟩ <;>
      simp [h, h']
  all_goals simp [h]

/-- AttemptEnd emits at most one event (`60_exceptions.md` R387). -/
theorem attemptEnd_events (now : Nat) (o : TxOutcome) (s : State) :
    (attemptEnd now o s).events = s.events ∨ ∃ e, (attemptEnd now o s).events = s.events ++ [e] := by
  rcases attemptEnd_cases now o s with ⟨-, -, h⟩ | ⟨-, -, h⟩ | ⟨-, -, -, -, h⟩ | ⟨-, -, h⟩ | ⟨-, -, -, h⟩ |
    ⟨-, -, -, h⟩
  · rcases nextCandidate_cases now (recordOutcome o s) with ⟨-, h'⟩ | ⟨c, -, -, h'⟩ <;>
      simp [h, h']
  · simp [h]
  · rcases nextCandidate_cases now (countAttempt (recordOutcome o s)) with ⟨-, h'⟩ | ⟨c, -, -, h'⟩ <;>
      simp [h, h']
  all_goals simp [h]

/-! ### A pending INIT -/

/-- Everything ApplyInit can do (R342): fail on an empty list, or poll the first candidate. -/
theorem applyInit_cases (now : Nat) (s : State) :
    (s.params.candidatesFor s.pinit.devType = [] ∧ applyInit now s = allocFail (releaseSession s)) ∨
    ∃ c rest, s.params.candidatesFor s.pinit.devType = c :: rest ∧
      applyInit now s = armPoll now c (beginPolling (releaseSession s)) := by
  cases h : s.params.candidatesFor s.pinit.devType with
  | nil => exact .inl ⟨rfl, by simp [applyInit, h]⟩
  | cons c rest => exact .inr ⟨c, rest, rfl, by simp [applyInit, h]⟩

/-! ### Handlers -/

/-- What no handler writes: the parameters, the configuration, the latch, the ports the host sees, `last_line`,
`t_free` and `t_last` (R155, R170). -/
structure HandlerFrame (t s : State) : Prop where
  params : t.params = s.params
  cfg : t.cfg = s.cfg
  pinit : t.pinit = s.pinit
  input : t.input = s.input
  response : t.response = s.response
  lastLine : t.line.lastLine = s.line.lastLine
  tFree : t.time.tFree = s.time.tFree
  tLast : t.time.tLast = s.time.tLast

theorem HandlerFrame.refl (s : State) : HandlerFrame s s := ⟨rfl, rfl, rfl, rfl, rfl, rfl, rfl, rfl⟩

theorem HandlerFrame.trans {u t s : State} (h : HandlerFrame u t) (h' : HandlerFrame t s) : HandlerFrame u s :=
  ⟨h.params.trans h'.params, h.cfg.trans h'.cfg, h.pinit.trans h'.pinit, h.input.trans h'.input,
    h.response.trans h'.response, h.lastLine.trans h'.lastLine, h.tFree.trans h'.tFree, h.tLast.trans h'.tLast⟩

/-- `SetDrive` leaves `last_line` as it is. -/
@[simp] theorem driven_lastLine (now : Nat) (v : Bool) (r : LineRegs) :
    (driven now v r).lastLine = r.lastLine := by
  unfold driven; split <;> rfl

/-- After `SetDrive(v)` the drive is `v`. -/
@[simp] theorem driven_driveLow (now : Nat) (v : Bool) (r : LineRegs) : (driven now v r).driveLow = v := by
  unfold driven; split
  · next h => exact h.symm
  · rfl

theorem attemptEnd_handlerFrame (now : Nat) (o : TxOutcome) (s : State) :
    HandlerFrame (attemptEnd now o s) s := by
  obtain ⟨h1, h2, -, h4, -, h6, h7, h8, -, h10, h11⟩ := attemptEnd_frame now o s
  exact ⟨h1, h2, h6, h7, h8, by rw [h4], h10, h11⟩

theorem startBit_handlerFrame (now : Nat) (st : EngineState) (s : State) : HandlerFrame (startBit now st s) s := by
  constructor <;> simp

theorem rxError_handlerFrame (now : Nat) (s : State) : HandlerFrame (rxError now s) s := by
  constructor <;> simp

theorem recordRxBit_handlerFrame (v : Bool) (s : State) : HandlerFrame (recordRxBit v s) s := by
  unfold recordRxBit; dsimp only
  split_ifs <;> constructor <;> rfl

theorem recordRxAck_handlerFrame (now : Nat) (ack : Bool) (s : State) :
    HandlerFrame (recordRxAck now ack s) s := by
  unfold recordRxAck; dsimp only
  split_ifs <;> constructor <;> simp

/-- No handler writes what `HandlerFrame` names. -/
theorem runHandler_frame (h : Handler) (p : Sample) (s : State) : HandlerFrame (runHandler h p s) s := by
  cases h <;> dsimp only [runHandler]
  case none => exact HandlerFrame.refl _
  case idle =>
    unfold handleIdle; split_ifs
    · constructor <;> simp
    · exact attemptEnd_handlerFrame ..
    · constructor <;> simp
    · exact HandlerFrame.refl _
  case gap => unfold handleGap; split_ifs <;> constructor <;> simp
  case awaitLow => unfold handleAwaitLow; split_ifs <;> constructor <;> simp
  case awaitTotal => unfold handleAwaitTotal; split_ifs <;> constructor <;> simp
  case sendStart =>
    unfold handleSendStart; split_ifs
    · constructor <;> simp
    · exact HandlerFrame.refl _
    · constructor <;> simp
    · exact (attemptEnd_handlerFrame ..).trans (by constructor <;> simp)
    · exact HandlerFrame.refl _
  case sendStartEnd => unfold handleSendStartEnd; split_ifs <;> constructor <;> simp
  case txBitLow => unfold handleTxBitLow; split_ifs <;> constructor <;> simp
  case txBitSample =>
    unfold handleTxBitSample; dsimp only; split_ifs
    · exact (attemptEnd_handlerFrame ..).trans (by constructor <;> simp)
    · exact (attemptEnd_handlerFrame ..).trans (by constructor <;> simp)
    all_goals constructor <;> simp
  case txBitEnd => unfold handleTxBitEnd; dsimp only; split_ifs <;> constructor <;> simp
  case txAckLow => unfold handleTxAckLow; split_ifs <;> constructor <;> simp
  case txAckSample =>
    unfold handleTxAckSample; dsimp only; split_ifs
    · exact (attemptEnd_handlerFrame ..).trans (by constructor <;> simp)
    · exact (attemptEnd_handlerFrame ..).trans (by constructor <;> simp)
    · constructor <;> simp
    · exact HandlerFrame.refl _
  case txAckEnd => unfold handleTxAckEnd; split_ifs <;> constructor <;> simp
  case rxBitLow =>
    unfold handleRxBitLow; split_ifs
    · split
      · exact rxError_handlerFrame ..
      · next v _ => exact HandlerFrame.trans (by constructor <;> simp) (recordRxBit_handlerFrame v s)
    · exact rxError_handlerFrame ..
    · exact HandlerFrame.refl _
  case rxBitEnd => unfold handleRxBitEnd; dsimp only; split_ifs <;> constructor <;> simp
  case rxAckLow =>
    unfold handleRxAckLow; split_ifs
    · constructor <;> simp
    · split
      · exact rxError_handlerFrame ..
      · exact recordRxAck_handlerFrame ..
    · exact rxError_handlerFrame ..
    · exact HandlerFrame.refl _
  case rxAckEnd => unfold handleRxAckEnd; split_ifs <;> constructor <;> simp

/-- ApplyInit writes no parameter, no line register, no receive register, none of the ports but the event list, and of
the timestamps only `t_attempt` (R342: "State written"). -/
theorem applyInit_frame (now : Nat) (s : State) :
    (applyInit now s).params = s.params ∧ (applyInit now s).line = s.line ∧ (applyInit now s).rx = s.rx ∧
    (applyInit now s).input = s.input ∧ (applyInit now s).response = s.response ∧
    (applyInit now s).time.tFall = s.time.tFall ∧ (applyInit now s).time.tFree = s.time.tFree ∧
    (applyInit now s).time.tLast = s.time.tLast := by
  rcases applyInit_cases now s with ⟨-, h⟩ | ⟨c, rest, -, h⟩ <;> simp [h]

end Sys2Proof.Machine
end

