-- ==== Sys2Proof/Laws/PerInstr.lean ====
section
/-! SUPPORT. The family `EncodingHead`: every instruction's transfer stands on its row's port and begins with its row's
code in bits 3..0 of the first byte (`30_encoding.md` R120 for the commands; log entry 4 for the other ports). -/

namespace Sys2Proof

/-- The port and the code of an instruction's row. -/
def rowHead : Instr → Port × BitVec 4
  | .init _ _ _ => (.command, 1)
  | .transmit _ _ => (.command, 2)
  | .getLa => (.command, 3)
  | .getStatus => (.command, 4)
  | .reservedCmd code => (.command, code)
  | .reset _ => (.step, 0)
  | .tick _ _ => (.step, 1)
  | .read _ => (.line, 0)
  | .drive _ => (.line, 1)
  | .start _ _ _ => (.wire, 0)
  | .data0 _ _ _ => (.wire, 1)
  | .data1 _ _ _ => (.wire, 2)
  | .block _ _ _ _ => (.wire, 3)
  | .eom _ _ => (.wire, 4)
  | .ackSlot _ _ => (.wire, 5)
  | .header _ _ _ => (.wire, 6)
  | .frame _ _ => (.wire, 7)
  | .poll _ _ _ => (.wire, 8)

/-- The transfer of `i` is on its row's port and its first byte carries its row's code. -/
def Laws.EncodingHead.Statement (i : Instr) : Prop :=
  (encode i).port = (rowHead i).1 ∧ ∃ h r, (encode i).bytes = h :: r ∧ lowNibble h = (rowHead i).2

theorem Laws.EncodingHead.init (phys : BitVec 16) (devType : BitVec 8) (prom : Bool) :
    Laws.EncodingHead.Statement (.init phys devType prom) := ⟨rfl, _, _, rfl, lowNibble_nibbles ..⟩

theorem Laws.EncodingHead.transmit (dest : LogAddr) (payload : List Byte) :
    Laws.EncodingHead.Statement (.transmit dest payload) := ⟨rfl, _, _, rfl, lowNibble_nibbles ..⟩

theorem Laws.EncodingHead.getLa : Laws.EncodingHead.Statement .getLa := ⟨rfl, _, _, rfl, lowNibble_nibbles ..⟩

theorem Laws.EncodingHead.getStatus : Laws.EncodingHead.Statement .getStatus :=
  ⟨rfl, _, _, rfl, lowNibble_nibbles ..⟩

theorem Laws.EncodingHead.reservedCmd (code : BitVec 4) : Laws.EncodingHead.Statement (.reservedCmd code) :=
  ⟨rfl, _, _, rfl, lowNibble_nibbles ..⟩

theorem Laws.EncodingHead.reset (now0 : Nat) : Laws.EncodingHead.Statement (.reset now0) :=
  ⟨rfl, _, _, rfl, lowNibble_nibbles ..⟩

theorem Laws.EncodingHead.tick (now : Nat) (lineIn : Bool) : Laws.EncodingHead.Statement (.tick now lineIn) :=
  ⟨rfl, _, _, rfl, lowNibble_nibbles ..⟩

theorem Laws.EncodingHead.read (lineIn : Bool) : Laws.EncodingHead.Statement (.read lineIn) :=
  ⟨rfl, _, _, rfl, lowNibble_nibbles ..⟩

theorem Laws.EncodingHead.drive (v : Bool) : Laws.EncodingHead.Statement (.drive v) :=
  ⟨rfl, _, _, rfl, lowNibble_nibbles ..⟩

theorem Laws.EncodingHead.start (sch : Sched) (low period : Nat) :
    Laws.EncodingHead.Statement (.start sch low period) := ⟨rfl, _, _, rfl, lowNibble_nibbles ..⟩

theorem Laws.EncodingHead.data0 (sch : Sched) (low period : Nat) :
    Laws.EncodingHead.Statement (.data0 sch low period) := ⟨rfl, _, _, rfl, lowNibble_nibbles ..⟩

theorem Laws.EncodingHead.data1 (sch : Sched) (low period : Nat) :
    Laws.EncodingHead.Statement (.data1 sch low period) := ⟨rfl, _, _, rfl, lowNibble_nibbles ..⟩

theorem Laws.EncodingHead.block (sch : Sched) (d : Byte) (e a : Bool) :
    Laws.EncodingHead.Statement (.block sch d e a) := ⟨rfl, _, _, rfl, lowNibble_nibbles ..⟩

theorem Laws.EncodingHead.eom (sch : Sched) (e : Bool) : Laws.EncodingHead.Statement (.eom sch e) :=
  ⟨rfl, _, _, rfl, lowNibble_nibbles ..⟩

theorem Laws.EncodingHead.ackSlot (sch : Sched) (a : Bool) : Laws.EncodingHead.Statement (.ackSlot sch a) :=
  ⟨rfl, _, _, rfl, lowNibble_nibbles ..⟩

theorem Laws.EncodingHead.header (sch : Sched) (src dst : LogAddr) :
    Laws.EncodingHead.Statement (.header sch src dst) := ⟨rfl, _, _, rfl, lowNibble_nibbles ..⟩

theorem Laws.EncodingHead.frame (sch : Sched) (blocks : List (Byte × Bool)) :
    Laws.EncodingHead.Statement (.frame sch blocks) := ⟨rfl, _, _, rfl, lowNibble_nibbles ..⟩

theorem Laws.EncodingHead.poll (sch : Sched) (c : LogAddr) (a : Bool) :
    Laws.EncodingHead.Statement (.poll sch c a) := ⟨rfl, _, _, rfl, lowNibble_nibbles ..⟩

end Sys2Proof
end

