-- ==== Sys2Proof/Laws/Tick.lean ====
section
/-! SUPPORT. Where a handler runs, and what a TICK is, once: the handler R172 selects between the sampling and the
epilogue; that the epilogue can be moved through AttemptEnd; what the classification of a low time answers; and induction
over a run of TICKs. -/

namespace Sys2Proof.Machine

/-! ### A TICK as one handler -/

/-- An admitted TICK runs `tickAt` on cleared ports. -/
theorem execTick_admitted {now : Nat} {s : State} (lineIn : Bool) (h : s.time.tLast < now) :
    execTick now lineIn s = .next (tickAt now lineIn (clearPorts s)) := by
  unfold execTick; rw [if_neg (Nat.not_le.mpr h)]

/-- A TICK that completes was admitted. -/
theorem execTick_eq_next {now : Nat} {lineIn : Bool} {s t : State} (h : execTick now lineIn s = .next t) :
    s.time.tLast < now ∧ t = tickAt now lineIn (clearPorts s) := by
  unfold execTick at h
  by_cases hn : now ≤ s.time.tLast
  · rw [if_pos hn] at h; injection h
  · rw [if_neg hn] at h; injection h with h; exact ⟨Nat.not_le.mp hn, h.symm⟩

/-- The parts of `legal`. -/
theorem legal_iff {s : State} :
    Legal s ↔ CodesOk s ∧ SeqOk s.seq ∧ DriveOk s ∧ (AttemptParamsOk s.params → PendingOk s) ∧ SessionOk s := by
  unfold Legal legal CodesOk
  rw [Bool.and_eq_true_iff, Bool.and_eq_true_iff, Bool.and_eq_true_iff, Bool.and_eq_true_iff, Bool.not_eq_true',
    decide_eq_true_iff, decide_eq_true_iff, decide_eq_true_iff, decide_eq_true_iff, and_assoc, and_assoc, and_assoc]

/-- Invariants with no unwritten code leave nothing for R193 to stop but its table. -/
theorem legal_of_invariants {s : State} (h : Invariants s) (hc : CodesOk s) : Legal s :=
  legal_iff.mpr ⟨hc, h.seq, h.drive, fun _ => h.pending, h.session⟩

/-- A handler runs exactly in a legal state of R172's table. -/
theorem stuck_eq_false {s : State} :
    stuck s = false ↔ Legal s ∧ selectHandler s.seq.st s.seq.role s.seq.ph ≠ .none := by
  unfold stuck; rw [Bool.or_eq_false_iff, Bool.not_eq_false', beq_eq_false_iff_ne]

/-- The ports have no part in it. -/
@[simp] theorem stuck_clearPorts (s : State) : stuck (clearPorts s) = stuck s := rfl

/-- Neither has the latch. -/
@[simp] theorem stuck_pinit (p : PInitRegs) (s : State) : stuck { s with pinit := p } = stuck s := rfl

/-- Where R193 lets no handler run, a TICK samples and ends. -/
theorem tickAt_stuck {now : Nat} {lineIn : Bool} {s : State} (h : stuck s = true) :
    tickAt now lineIn s = epilogue (sampleOf now lineIn s) (stampFree (sampleOf now lineIn s) s) := by
  unfold tickAt; rw [if_pos h]

/-- Everywhere else it runs the selected handler, after ApplyInit where an INIT is due. -/
theorem tickAt_served {now : Nat} {lineIn : Bool} {s : State} (h : stuck s = false) :
    tickAt now lineIn s = serveTick now lineIn (if initDue s = true then applyInit now s else s) := by
  unfold tickAt; rw [if_neg (by rw [h]; exact Bool.false_ne_true)]

/-- The parts of `serveTick`. -/
theorem serveTick_eq (now : Nat) (lineIn : Bool) (s : State) :
    serveTick now lineIn s = epilogue (sampleOf now lineIn s)
      (runHandler (selectHandler s.seq.st s.seq.role s.seq.ph) (sampleOf now lineIn s)
        (stampFree (sampleOf now lineIn s) s)) := rfl

/-- A latched INIT is not due while a host frame is pending. -/
theorem initDue_of_noInitDue {s : State} (h : NoInitDue s) : initDue s = false := by
  simp only [initDue, NoInitDue] at *
  cases hv : s.pinit.valid
  · rfl
  · obtain ⟨h1, h2⟩ := h hv; simp [h1, h2]

/-- A latched INIT is not due outside IDLE and INTERFRAME_GAP. -/
theorem initDue_of_busy {s : State} (h : s.seq.st ≠ .idle) (h' : s.seq.st ≠ .interframeGap) : initDue s = false := by
  simp [initDue, h, h']

/-! ### The epilogue moves through AttemptEnd -/

theorem epilogue_ite (p : Sample) (c : Prop) [Decidable c] (a b : State) :
    epilogue p (if c then a else b) = if c then epilogue p a else epilogue p b := by
  split <;> rfl

theorem nextCandidate_epilogue (p : Sample) (now : Nat) (s : State) :
    nextCandidate now (epilogue p s) = epilogue p (nextCandidate now s) := by
  rcases nextCandidate_cases now s with ⟨h, e⟩ | ⟨c, h, -, e⟩ <;> rw [e] <;>
    rcases nextCandidate_cases now (epilogue p s) with ⟨h', e'⟩ | ⟨c', h', -, e'⟩ <;> rw [e'] <;>
    rw [epilogue_params, epilogue_cfg, epilogue_session, h] at h'
  · rfl
  · cases h'
  · cases h'
  · injection h' with h'; subst h'; rfl

/-- AttemptEnd writes nothing the epilogue writes, and reads nothing it writes. -/
theorem attemptEnd_epilogue (p : Sample) (now : Nat) (o : TxOutcome) (s : State) :
    attemptEnd now o (epilogue p s) = epilogue p (attemptEnd now o s) := by
  have hr : recordOutcome o (epilogue p s) = epilogue p (recordOutcome o s) := rfl
  have hc : countAttempt (recordOutcome o (epilogue p s)) = epilogue p (countAttempt (recordOutcome o s)) := rfl
  rcases attemptEnd_cases now o s with ⟨k, h1, e⟩ | ⟨k, h1, e⟩ | ⟨k, h1, h2, h3, e⟩ | ⟨k, h1, e⟩ | ⟨k, h1, h3, e⟩ |
    ⟨h1, h2, h3, e⟩ <;> rw [e] <;>
  rcases attemptEnd_cases now o (epilogue p s) with ⟨k', h1', e'⟩ | ⟨k', h1', e'⟩ | ⟨k', h1', h2', h3', e'⟩ |
    ⟨k', h1', e'⟩ | ⟨k', h1', h3', e'⟩ | ⟨h1', h2', h3', e'⟩ <;> rw [e'] <;>
  simp only [epilogue_params, epilogue_tx] at * <;>
  first
  | rfl
  | (exfalso; omega)
  | (exfalso; simp_all; done)
  | (rw [hr, nextCandidate_epilogue])
  | (rw [hc, nextCandidate_epilogue])

/-! ### Classification and polarity -/

/-- A low time in DATA1's band is a 1 (R186). -/
theorem classify_one {c : Config} {x : Nat} (h : c.oneLowMin ≤ x ∧ x ≤ c.oneLowMax) :
    classify c x = some true := by
  simp [classify, inBand, h]

/-- A low time in DATA0's band and outside DATA1's is a 0 (R186). -/
theorem classify_zero {c : Config} {x : Nat} (h1 : ¬ (c.oneLowMin ≤ x ∧ x ≤ c.oneLowMax))
    (h0 : c.zeroLowMin ≤ x ∧ x ≤ c.zeroLowMax) : classify c x = some false := by
  simp [classify, inBand, h1, h0]

/-- Every other low time is ERR (R186). -/
theorem classify_err {c : Config} {x : Nat} (h1 : ¬ (c.oneLowMin ≤ x ∧ x ≤ c.oneLowMax))
    (h0 : ¬ (c.zeroLowMin ≤ x ∧ x ≤ c.zeroLowMax)) : classify c x = none := by
  simp [classify, inBand, h1, h0]

/-- AckOf by the header's destination (R257, R258). -/
theorem ackOf_directed (h : Byte) (v : Bool) :
    ackOf (directed h) v = if headerDst h = 15 then v else !v := by
  revert h v; decide

/-! ### Runs of TICKs -/

/-- What one TICK keeps, whatever its level, a run of TICKs keeps. -/
theorem runTicks_induction {P : State → Prop} {wave : Nat → Bool} {gap : Nat}
    (keep : ∀ s, P s → P (tickAt (s.time.tLast + gap) (wave (s.time.tLast + gap) && !s.line.driveLow) s)) :
    ∀ (n : Nat) (s : State), P s → P (runTicks wave gap n s)
  | 0, _, h => h
  | n + 1, s, h => runTicks_induction keep n _ (keep s h)

/-- A run of TICKs in two parts. -/
theorem runTicks_add (wave : Nat → Bool) (gap m n : Nat) (s : State) :
    runTicks wave gap (m + n) s = runTicks wave gap n (runTicks wave gap m s) := by
  induction m generalizing s with
  | zero => rw [Nat.zero_add]; rfl
  | succ m ih => rw [Nat.add_right_comm]; exact ih _

end Sys2Proof.Machine
end

