-- ==== Sys2Proof/Tests/Slice0.lean ====
section
/-! SUPPORT. The model's own tests: refused ill-formed instructions, words written out by hand, vectors of
`95_test_vectors.md` one step each, and for every statement with hypotheses a state and operands that meet them. -/

namespace Sys2Proof.Tests

open Sys2Proof.Machine

/-! ### WellFormed refuses -/

theorem test_wf_refuses_code_of_a_command : Instr.wf Config.default (.reservedCmd 4) = false := by decide

theorem test_wf_takes_reserved_codes :
    Instr.wf Config.default (.reservedCmd 0) = true ∧ Instr.wf Config.default (.reservedCmd 5) = true := by decide

theorem test_wf_refuses_start_low_and_period :
    Instr.wf Config.default (.start ⟨100, 10⟩ 3499 4500) = false ∧
    Instr.wf Config.default (.start ⟨100, 10⟩ 3901 4500) = false ∧
    Instr.wf Config.default (.start ⟨100, 10⟩ 3700 4299) = false ∧
    Instr.wf Config.default (.start ⟨100, 10⟩ 3700 4701) = false := by decide

theorem test_wf_refuses_data_out_of_band :
    Instr.wf Config.default (.data0 ⟨100, 10⟩ 1299 2400) = false ∧
    Instr.wf Config.default (.data0 ⟨100, 10⟩ 1500 2751) = false ∧
    Instr.wf Config.default (.data1 ⟨100, 10⟩ 801 2400) = false ∧
    Instr.wf Config.default (.data1 ⟨100, 10⟩ 600 2049) = false := by decide

theorem test_wf_refuses_low_time_past_the_period :
    Instr.wf { bitMin := 700 } (.data1 ⟨100, 10⟩ 800 700) = false := by decide

theorem test_wf_refuses_tick_gaps :
    Instr.wf Config.default (.eom ⟨100, 0⟩ true) = false ∧ Instr.wf Config.default (.ackSlot ⟨100, 51⟩ true) = false ∧
    Instr.wf Config.default (.block ⟨100, 0⟩ 0 true true) = false ∧
    Instr.wf Config.default (.header ⟨100, 51⟩ 4 0) = false := by decide

theorem test_wf_refuses_frame_lengths :
    Instr.wf Config.default (.frame ⟨100, 10⟩ []) = false ∧
    Instr.wf Config.default (.frame ⟨100, 10⟩ (List.replicate 17 (0, true))) = false := by decide

theorem test_wf_refuses_poll_of_fifteen : Instr.wf Config.default (.poll ⟨100, 10⟩ 15 true) = false := by decide

/-! ### Words written out by hand. A natural takes seven bits a byte: 300 is `AC 02`, 10 is `0A`. -/

theorem test_decode_init : decode ⟨.command, [0x11, 0x04, 0x00, 0x30]⟩ = .ok (.init 0x3000 4 true) := by decide
theorem test_decode_transmit :
    decode ⟨.command, [0xF2, 0x04, 0x84, 0x30, 0x00, 0x04]⟩ = .ok (.transmit 15 [0x84, 0x30, 0x00, 0x04]) := by decide
theorem test_decode_getLa : decode ⟨.command, [0x03]⟩ = .ok .getLa := by decide
theorem test_decode_getStatus : decode ⟨.command, [0x04]⟩ = .ok .getStatus := by decide
theorem test_decode_reservedCmd :
    decode ⟨.command, [0x00]⟩ = .ok (.reservedCmd 0) ∧ decode ⟨.command, [0x05]⟩ = .ok (.reservedCmd 5) := by decide
theorem test_decode_reset : decode ⟨.step, [0x00, 0xAC, 0x02]⟩ = .ok (.reset 300) := by decide
theorem test_decode_tick : decode ⟨.step, [0x11, 0x8A, 0x4E]⟩ = .ok (.tick 9994 true) := by decide
theorem test_decode_read : decode ⟨.line, [0x10]⟩ = .ok (.read true) := by decide
theorem test_decode_drive : decode ⟨.line, [0x11]⟩ = .ok (.drive true) := by decide
theorem test_decode_start :
    decode ⟨.wire, [0x00, 0x64, 0x0A, 0xF4, 0x1C, 0x94, 0x23]⟩ = .ok (.start ⟨100, 10⟩ 3700 4500) := by decide
theorem test_decode_data0 :
    decode ⟨.wire, [0x01, 0x64, 0x0A, 0xDC, 0x0B, 0xE0, 0x12]⟩ = .ok (.data0 ⟨100, 10⟩ 1500 2400) := by decide
theorem test_decode_data1 :
    decode ⟨.wire, [0x02, 0x64, 0x0A, 0xD8, 0x04, 0xE0, 0x12]⟩ = .ok (.data1 ⟨100, 10⟩ 600 2400) := by decide
theorem test_decode_block :
    decode ⟨.wire, [0x13, 0x64, 0x0A, 0x36]⟩ = .ok (.block ⟨100, 10⟩ 0x36 true false) := by decide
theorem test_decode_eom : decode ⟨.wire, [0x14, 0x64, 0x0A]⟩ = .ok (.eom ⟨100, 10⟩ true) := by decide
theorem test_decode_ackSlot : decode ⟨.wire, [0x05, 0x64, 0x0A]⟩ = .ok (.ackSlot ⟨100, 10⟩ false) := by decide
theorem test_decode_header : decode ⟨.wire, [0x06, 0x64, 0x0A, 0x45]⟩ = .ok (.header ⟨100, 10⟩ 4 5) := by decide
theorem test_decode_frame :
    decode ⟨.wire, [0x07, 0x64, 0x0A, 0x02, 0x45, 0x00, 0x46, 0x01]⟩ =
      .ok (.frame ⟨100, 10⟩ [(0x45, false), (0x46, true)]) := by decide
theorem test_decode_poll : decode ⟨.wire, [0x18, 0x64, 0x0A, 0x04]⟩ = .ok (.poll ⟨100, 10⟩ 4 true) := by decide

theorem test_decode_rejects_by_name :
    decode ⟨.command, [0x01, 0x04]⟩ = .error .truncated ∧ decode ⟨.command, [0x03, 0x01]⟩ = .error .trailing ∧
    decode ⟨.line, [0x20]⟩ = .error .reservedBits ∧ decode ⟨.step, [0x0F]⟩ = .error (.unknownCode .step 15) := by
  decide

/-! ### States for one-step tests -/

/-- The state a step leaves, where it completes. -/
def nextState : Host.Outcome State Fault Refusal → Option State
  | .next s => some s
  | _ => none

/-- A state 10000 microseconds after the last edge on a released line, with `el` elapsed since `t_fall` at the TICK at
10000. Reads are valid at that TICK. -/
def at10000 (st : EngineState) (role : Role) (ph : Phase) (el : Nat) (lastLine : Bool) : State :=
  { State.reset with
    seq := ⟨st, ph, role, 0, 0⟩
    line := ⟨false, 0, lastLine⟩
    time := ⟨10000 - el, 0, 9990, 0⟩ }

/-- The registers of the TICK at 10000 that the vectors name. -/
def tickSeq (lineIn : Bool) (s : State) : Option SeqRegs := (nextState (exec (.tick 10000 lineIn) s)).map State.seq

/-- A core that has claimed address 4 as a playback device. -/
def claimed : State := { State.reset with cfg := ⟨0x3000, 4, false⟩, session := ⟨.claimed, 4, 0⟩ }

/-- The sample of the ACK slot of a one-block frame `h`, at the TICK at 10000. -/
def ackSample (h : Byte) (kind : TxKind) (alloc : Alloc) (la : LogAddr) (candIdx : BitVec 4) (attempt : Nat) : State :=
  { at10000 .ackWindow .tx .sampleRelease 1050 true with
    cfg := ⟨0x3000, 4, false⟩
    session := ⟨alloc, la, candIdx⟩
    seq := ⟨.ackWindow, .sampleRelease, .tx, 9, 0⟩
    tx := { State.reset.tx with
      buf := h :: List.replicate 15 0, len := 1, pending := true, kind := kind, attempt := attempt } }

/-- The ACK slot of a received one-block frame `h` with EOM = 1, at its rise at the TICK at 10000. -/
def rxEnd (h : Byte) (prom : Bool) : State :=
  { at10000 .ackWindow .rx .driveLowEdge 600 false with
    cfg := ⟨0x3000, 4, prom⟩
    session := ⟨.claimed, 4, 0⟩
    seq := ⟨.ackWindow, .driveLowEdge, .rx, 9, 0⟩
    rx := { State.reset.rx with buf := h :: List.replicate 15 0, eom := true } }

/-! ### Vectors of `95_test_vectors.md` -/

/-- Section 2.2. -/
theorem test_classify : [399, 400, 800, 801, 1000, 1299, 1300, 1700, 1701].map (classify Config.default) =
    [none, some true, some true, none, none, none, some false, some false, none] := by decide

/-- Section 2.5, AckOf. -/
theorem test_ackOf : [0x44#8, 0x04, 0x4F, 0xFF].map (fun h => (ackOf (directed h) false, ackOf (directed h) true)) =
    [(true, false), (true, false), (false, true), (false, true)] := by decide

/-- Section 2.5, AckMe. -/
theorem test_ackMe : [0x04#8, 0x05, 0x4F, 0x44, 0x0F].map (ackMe claimed.session) = [true, false, false, true, false] ∧
    [0x04#8, 0x05, 0x4F, 0x44, 0x0F].map (ackMe ⟨.polling, 15, 0⟩) = List.replicate 5 false := by decide

/-- Section 2.5, Wanted. -/
theorem test_wanted : [0x04#8, 0x05, 0x0F, 0x55].map (wanted claimed.cfg claimed.session) = [true, false, true, false] ∧
    [0x04#8, 0x05, 0x0F, 0x55].map (wanted ⟨0, 4, true⟩ claimed.session) = List.replicate 4 true ∧
    [0x04#8, 0x05, 0x0F, 0x55].map (wanted ⟨0, 4, false⟩ ⟨.failed, 15, 3⟩) = [false, false, true, false] := by decide

/-- Section 2.5, encode: poll 4 is `S 01000100 1 a`, its ACK sample 27150 after the start. -/
theorem test_encode_poll : frameSymbols [0x44] = .start ::
    [false, true, false, false, false, true, false, false, true, true].map .bit ∧
    totalPeriod (framePulses Config.default [(0x44, true)]) = 27150 - 1050 + 2400 := by decide

/-- V-LN-1 and V-LN-2: the phantom rise. -/
theorem test_phantom_rise :
    (nextState (exec (.tick 10 true) State.reset)).map (fun s => (s.line.lastLine, s.time.tFree)) = some (false, 0) ∧
    (nextState (exec (.tick 20 true) State.reset)).map (fun s => (s.line.lastLine, s.time.tFree)) = some (true, 20) := by
  decide

/-- V-RX-1 and V-RX-2. -/
theorem test_start_low : [3499, 3500, 3900, 3901].map (fun el =>
      (tickSeq true (at10000 .awaitStart .rx .driveLowEdge el false)).map fun q => (q.st, q.ph)) =
    [some (.idle, .driveLowEdge), some (.awaitStart, .fullBitWait), some (.awaitStart, .fullBitWait),
      some (.idle, .driveLowEdge)] := by decide

/-- V-RX-3 and V-RX-4. -/
theorem test_start_total : [4299, 4300, 4700, 4701].map (fun el =>
      (tickSeq false (at10000 .awaitStart .rx .fullBitWait el true)).map fun q => q.st) =
    [some .idle, some .bitPeriod, some .bitPeriod, some .idle] := by decide

/-- V-RX-7 and V-RX-8. -/
theorem test_bit_period : [2049, 2050, 2750, 2751].map (fun el =>
      (tickSeq false (at10000 .bitPeriod .rx .fullBitWait el true)).map fun q => (q.st, q.bitIdx.toNat)) =
    [some (.idle, 0), some (.bitPeriod, 1), some (.bitPeriod, 1), some (.idle, 0)] := by decide

/-- V-RX-5 and V-RX-6. -/
theorem test_bit_low : [600, 1000, 1500].map (fun el =>
      (nextState (exec (.tick 10000 true) (at10000 .bitPeriod .rx .driveLowEdge el false))).map
        fun s => (s.seq.st, s.rx.shift.toNat)) =
    [some (.bitPeriod, 1), some (.idle, 0), some (.bitPeriod, 0)] := by decide

/-- V-RX-9: a claimed receiver pulls the ACK slot LOW. -/
theorem test_ack_driven : (nextState (exec (.tick 10000 false)
      { at10000 .bitPeriod .rx .fullBitWait 2400 true with
        seq := ⟨.bitPeriod, .fullBitWait, .rx, 8, 0⟩, rx := { State.reset.rx with ackMe := true } })).map
      (fun s => (s.seq.st, s.seq.bitIdx.toNat, s.line.driveLow, s.line.tDrive)) =
    some (.ackWindow, 9, true, 10000) := by decide

/-- Section 2.6: a poll that nobody acknowledges claims its address (scenario S1 at 39170). -/
theorem test_poll_nak_claims : (nextState (exec (.tick 10000 true) (ackSample 0x44 .poll .polling 15 0 0))).map
    (fun s => (s.events, s.session)) = some ([.ready 4], ⟨.claimed, 4, 0⟩) := by decide

/-- Section 2.6: a poll that is acknowledged moves on to candidate 8, with the wait after a success (scenario S2 at
39170), and on the last candidate the allocation fails (S2 at 127970). -/
theorem test_poll_ack_moves_on :
    (nextState (exec (.tick 10000 false) (ackSample 0x44 .poll .polling 15 0 0))).map
      (fun s => (txHeader s.tx, s.tx.sft, s.session.candIdx)) = some (0x88, 7, 1) ∧
    (nextState (exec (.tick 10000 false) (ackSample 0xBB .poll .polling 15 2 0))).map
      (fun s => (s.events, s.session)) = some ([.allocFailed], ⟨.failed, 15, 3⟩) := by decide

/-- Section 2.6: a host frame's outcomes: SUCCESS, a NAK that is retried, the fifth NAK. -/
theorem test_host_outcomes :
    (nextState (exec (.tick 10000 true) (ackSample 0x4F .host .claimed 4 0 0))).map State.events =
      some [.txComplete [0x4F] [true] true .success] ∧
    (nextState (exec (.tick 10000 true) (ackSample 0x45 .host .claimed 4 0 3))).map
      (fun s => (s.events, s.tx.attempt, s.tx.sft, s.tx.pending)) = some ([], 4, 9, true) ∧
    (nextState (exec (.tick 10000 true) (ackSample 0x45 .host .claimed 4 0 4))).map
      (fun s => (s.events, s.tx.attempt)) = some ([.txComplete [0x45] [false] false .nak], 5) := by decide

/-- V-FR-1 and V-RX-13: a header-only frame in promiscuous mode, not acknowledged; and not delivered without it. -/
theorem test_delivery : (nextState (exec (.tick 10000 true) (rxEnd 0x05 true))).map State.events =
      some [.rxComplete [0x05] [false] false] ∧
    (nextState (exec (.tick 10000 true) (rxEnd 0x05 false))).map State.events = some [] := by decide

/-- V-HC-1 and V-HC-9. -/
theorem test_commands_after_reset :
    (nextState (exec (.transmit 0 [1]) State.reset)).map State.response = some (some .rejectNotReady) ∧
    (nextState (exec .getLa State.reset)).map State.response = some (some (.logAddr 15)) := by decide

/-- V-HC-2, V-HC-3 and V-HC-5. -/
theorem test_transmit_lengths :
    (nextState (exec (.transmit 0 (List.replicate 16 0)) claimed)).map State.response = some (some .rejectLength) ∧
    (nextState (exec (.transmit 0 (List.replicate 15 0)) claimed)).map (fun s => (s.tx.len, s.tx.pending)) =
      some (16, true) ∧
    (nextState (exec (.transmit 0 [1]) { claimed with pinit := ⟨true, 0, 0, false⟩ })).map State.response =
      some (some .rejectBusy) := by decide

/-- V-HC-7 and V-HC-8. -/
theorem test_transmit_header_and_init :
    (nextState (exec (.transmit 4 []) claimed)).map (fun s => (txHeader s.tx, s.tx.len)) = some (0x44, 1) ∧
    (nextState (exec (.init 0x3000 4 true) State.reset)).map (fun s => (s.pinit, s.response)) =
      some (⟨true, 0x3000, 4, true⟩, some .accepted) := by decide

/-- V-HC-11 and V-HC-12. -/
theorem test_refusals :
    nextState (exec (.reservedCmd 5) State.reset) = none ∧
    nextState (exec (.tick 500 true) { State.reset with time := ⟨0, 0, 500, 0⟩ }) = none := by decide

/-- Scenario S1 at 10: INIT of a playback device arms the poll of 4. -/
theorem test_init_applied : (nextState (exec (.tick 10 true) { State.reset with pinit := ⟨true, 0x3000, 4, false⟩ })).map
    (fun s => (s.session.alloc, txHeader s.tx, s.tx.sft, s.tx.pending)) = some (.polling, 0x44, 5, true) := by decide

/-- V-RS-1. -/
theorem test_status_after_reset : (nextState (exec .getStatus State.reset)).map State.response =
    some (some (.status ⟨0, 15, 0, 0xFFFF, 0xFF, false, 0, 0, false, 0, 0, 0, false⟩)) := by decide

/-- READ leaves every register; DRIVE(1) pulls LOW at `t_last` (log entry 7). -/
theorem test_line_primitives :
    (nextState (exec (.read true) State.reset)).map State.response = some (some (.level true)) ∧
    (nextState (exec (.drive true) { State.reset with time := ⟨0, 0, 500, 0⟩ })).map State.line =
      some ⟨true, 500, false⟩ := by decide

/-- The ACK slot of a block `36`, EOM = 1, pulled LOW: 8 data bits, EOM and the slot, 2400 each (R110, R115). -/
theorem test_block_wave : [0, 1499, 1500, 4800, 5399, 5400, 19200, 19800, 21600, 23099, 23100].map
      (levelAfter (blockPulses Config.default 0x36 true false)) =
    [false, false, true, false, false, true, false, true, false, false, true] := by decide

/-- V-FR-3: an overflow aborts silently and leaves `rx_len = 16` (log entry 19). -/
theorem test_overflow : (nextState (exec (.tick 10000 true)
      { rxEnd 0x4F false with
        seq := ⟨.ackWindow, .driveLowEdge, .rx, 9, 15⟩, rx := { (rxEnd 0x4F false).rx with eom := false } })).map
      (fun s => (s.seq.st, s.rx.len, s.events)) = some (.idle, 16, []) := by decide

/-! ### Wire rows -/

/-- An open bit of a received block, 2300 after its falling edge. -/
def openBit : State :=
  { at10000 .bitPeriod .rx .fullBitWait 2300 true with time := ⟨7700, 0, 10000, 0⟩ }

/-- A DATA1 of 600 seen through TICKs 100 apart is shifted in as a 1 (R187). -/
theorem test_data1_received : (nextState (exec (.data1 ⟨10050, 100⟩ 600 700) openBit)).map
    (fun s => (s.seq.bitIdx, s.rx.shift, s.seq.ph, s.time.tFall)) = some (1, 1, .fullBitWait, 10100) := by decide

/-- A DATA0 of 1500 is shifted in as a 0 (R187). -/
theorem test_data0_received : (nextState (exec (.data0 ⟨10050, 300⟩ 1500 1900) openBit)).map
    (fun s => (s.seq.bitIdx, s.rx.shift, s.seq.ph)) = some (1, 0, .fullBitWait) := by decide

/-! ### Witnesses: states and operands that meet the hypotheses of the statements -/

/-- The run invariant from its parts, each decided on its own. -/
theorem runInvariant_of_parts {s : State} (seq : SeqOk s.seq := by decide) (drive : DriveOk s := by decide)
    (pending : PendingOk s := by decide) (session : SessionOk s := by decide) (params : s.params.Wf := by decide)
    (codes : CodesOk s := by decide) (table : TableOk s := by decide) (buffers : BuffersOk s := by decide)
    (stamps : StampsOk s := by decide) (sending : SendingOk s := by decide) (address : AddressOk s := by decide)
    (counters : CountersOk s := by decide) :
    RunInvariant s :=
  ⟨⟨seq, drive, pending, session⟩, params, codes, table, buffers, stamps, sending, address, counters⟩

theorem runInvariant_reset : RunInvariant State.reset := runInvariant_of_parts
theorem runInvariant_claimed : RunInvariant claimed := runInvariant_of_parts
theorem runInvariant_ackSample_host : RunInvariant (ackSample 0x45 .host .claimed 4 0 4) :=
  runInvariant_of_parts
theorem runInvariant_ackSample_poll : RunInvariant (ackSample 0x44 .poll .polling 15 0 0) :=
  runInvariant_of_parts
theorem runInvariant_ackSample_lastPoll : RunInvariant (ackSample 0xBB .poll .polling 15 2 0) :=
  runInvariant_of_parts

theorem witness_DecodeEncodeRoundTrip :
    Instr.wf Config.default (.frame ⟨100, 10⟩ [(0x45, false), (0x46, true)]) = true ∧
    Instr.wf Config.default (.start ⟨0, 50⟩ 3500 4700) = true := by decide

theorem witness_CommandCodeDecides :
    decode ⟨.command, [0xF2, 0x00]⟩ = .ok (.transmit 15 []) ∧ decode ⟨.command, [0x0F]⟩ = .ok (.reservedCmd 15) := by
  decide

theorem witness_StepRunsDecoded :
    (State.reset.withFetchWord 8 3).input = tableInput 8 3 :: [] ∧ decode (tableInput 8 3) = .ok .getLa := by decide

theorem witness_StepWithoutInstruction :
    State.reset.input = [] ∧ { State.reset with input := [⟨.step, [0x0F]⟩] }.input = ⟨.step, [0x0F]⟩ :: [] ∧
    decode ⟨.step, [0x0F]⟩ = .error (.unknownCode .step 15) := by decide

theorem witness_TableWordRunsNext : decodeTableWord 8 4 = some .getStatus := by decide

theorem witness_PowerUpIsReset : claimed.params = Config.default ∧ claimed.input = [] := by decide

theorem witness_ResetEstablishesInvariant : Config.default.Wf := by decide

theorem witness_TransmitAssemblesFrame : claimed.session.alloc = .claimed ∧ claimed.tx.pending = false ∧
    claimed.pinit.valid = false ∧ (List.replicate 15 (0 : Byte)).length + 1 ≤ claimed.params.maxFrame := by decide

/-- Both cases, from states of the run invariant (`runInvariant_reset`, `runInvariant_claimed`). -/
theorem witness_GetLaAnswersAddress :
    State.reset.session.alloc ≠ .claimed ∧ claimed.session.alloc = .claimed := by decide

theorem witness_GetStatusAnswersRecord (a : Alloc) (st : EngineState) (r : Role) (k : TxKind) (o : TxOutcome) :
    ∃ s : State, s.session.alloc = a ∧ s.seq.st = st ∧ s.seq.role = r ∧ s.tx.kind = k ∧ s.tx.outcome = o :=
  ⟨{ at10000 st r .driveLowEdge 0 true with
      session := ⟨a, 15, 0⟩, tx := { State.reset.tx with kind := k, outcome := o } }, rfl, rfl, rfl, rfl, rfl⟩

theorem witness_ReservedCommandRefused :
    lowNibble 0xF0 = 0 ∧ 5 ≤ (lowNibble 0x05).toNat ∧ 5 ≤ (lowNibble 0x0F).toNat ∧
    { State.reset with input := [⟨.command, [0x05]⟩] }.input = [⟨.command, [0x05]⟩] := by decide

theorem witness_CommandsTouchOnlyLatches :
    (commandCode (.transmit 0 [1])).isSome = true ∧ nextState (exec (.transmit 0 [1]) claimed) ≠ none ∧
    (commandCode .getStatus).isSome = true ∧ nextState (exec .getStatus claimed) ≠ none := by decide

theorem witness_TickAdmission :
    (500 ≤ ({ State.reset with time := ⟨0, 0, 500, 0⟩ } : State).time.tLast) ∧ State.reset.time.tLast < 1 := by decide

theorem witness_TickEmitsAtMostOneEvent :
    (nextState (exec (.tick 10000 true) (ackSample 0x44 .poll .polling 15 0 0))).map (·.events.length) = some 1 := by
  decide

/-- A pending host frame in IDLE, `free` after the bus became free and `waited` after the frame was armed. -/
def idlePending (free waited : Nat) (lastLine : Bool) : State :=
  { claimed with
    line := ⟨false, 0, lastLine⟩
    time := ⟨0, 2000000 - free, 1999990, 2000000 - waited⟩
    tx := { State.reset.tx with buf := 0x4F :: List.replicate 15 0, len := 1, pending := true } }

/-- Off the table, with an unwritten code, and one state for each of R44's items 1 to 7 that breaks it (the first is
`93_implementation_defined.md` item 16's example). -/
theorem witness_OffTableTickOnlySamples :
    (∀ s ∈ [at10000 .bitPeriod .none .driveLowEdge 0 true, at10000 .code6 .tx .driveLowEdge 0 true,
      at10000 .awaitStart .rx .sampleRelease 0 true], ¬ InTable s.seq) ∧
    (∀ s ∈ [{ at10000 .idle .none .driveLowEdge 0 true with line := ⟨true, 0, true⟩ },
      at10000 .idle .none .code3 0 true, at10000 .sendStart .rx .driveLowEdge 0 true,
      at10000 .awaitStart .tx .driveLowEdge 0 true, at10000 .idle .rx .driveLowEdge 0 true,
      { idlePending 0 0 true with tx := { State.reset.tx with pending := true } },
      { idlePending 0 0 true with tx := { (idlePending 0 0 true).tx with kind := .poll } },
      { claimed with session := ⟨.claimed, 5, 0⟩ }], ¬ Legal s) ∧
    (at10000 .idle .none .driveLowEdge 0 true).time.tLast < 10000 := by decide

/-- Item 16's example stays as it is at a fall, where an IDLE core that meets R44 becomes a receiver. -/
theorem test_idle_driving_is_stuck :
    tickSeq false { at10000 .idle .none .driveLowEdge 0 true with line := ⟨true, 0, true⟩ } =
      some ⟨.idle, .driveLowEdge, .none, 0, 0⟩ ∧
    tickSeq false (at10000 .idle .none .driveLowEdge 0 true) = some ⟨.awaitStart, .driveLowEdge, .rx, 0, 0⟩ := by decide

/-- Each branch of the IDLE handler at its boundary: a fall, the wait limit, the free bus, none of them. -/
theorem witness_IdleYieldsTimesOutOrStarts :
    (∀ s ∈ [idlePending 11999 999999 true, idlePending 12000 999999 true, idlePending 11999 1000000 true],
      s.time.tLast < 2000000 ∧ Legal s ∧ NoInitDue s ∧ s.seq.st = .idle) ∧
    FallSeen 2000000 false (idlePending 11999 999999 true) ∧
    (tickAt 2000000 true (idlePending 11999 999999 true)).seq.st = .idle ∧
    (tickAt 2000000 true (idlePending 12000 999999 true)).seq.st = .sendStart ∧
    (tickAt 2000000 true (idlePending 12000 1000000 true)).tx.outcome = .timeout := by decide

theorem witness_FrameStartsOnlyOnFreeBus :
    (nextState (exec (.tick 2000000 true) (idlePending 12000 999999 true))).map (fun t => t.seq.st) =
      some .sendStart := by decide

theorem witness_GapEndsOrYields : ∀ el ∈ [2399, 2400],
    let s := at10000 .interframeGap .rx .driveLowEdge el true
    s.time.tLast < 10000 ∧ Legal s ∧ NoInitDue s ∧ s.seq.st = .interframeGap ∧ FallSeen 10000 false s := by decide

theorem witness_StartBitIsTimed : ∀ el ∈ [3499, 3500, 3900, 3901],
    let s := at10000 .awaitStart .rx .driveLowEdge el false
    let u := at10000 .awaitStart .rx .fullBitWait (el + 800) true
    s.time.tLast < 10000 ∧ Legal s ∧ s.seq.st = .awaitStart ∧ s.seq.ph = .driveLowEdge ∧ RiseSeen 10000 true s ∧
    u.time.tLast < 10000 ∧ Legal u ∧ u.seq.st = .awaitStart ∧ u.seq.ph = .fullBitWait ∧ FallSeen 10000 false u := by
  decide

theorem witness_StartBitIsSentAndChecked : ∀ el ∈ [3699, 3700],
    let s := at10000 .sendStart .tx .driveLowEdge el true
    let u := at10000 .sendStart .tx .sampleRelease el true
    s.time.tLast < 10000 ∧ Legal s ∧ s.seq.st = .sendStart ∧ s.seq.ph = .driveLowEdge ∧
    Legal u ∧ u.seq.st = .sendStart ∧ u.seq.ph = .sampleRelease ∧ ValidRead 10000 u := by decide

theorem witness_StartBitEnds : ∀ el ∈ [4499, 4500],
    let s := at10000 .sendStart .tx .fullBitWait el true
    s.time.tLast < 10000 ∧ Legal s ∧ s.seq.st = .sendStart ∧ s.seq.ph = .fullBitWait := by decide

theorem witness_SentBitHoldsNominalLow : ∀ el ∈ [599, 600, 1499, 1500],
    let s := at10000 .bitPeriod .tx .driveLowEdge el true
    s.time.tLast < 10000 ∧ Legal s ∧ s.seq.st = .bitPeriod ∧ s.seq.role = .tx ∧ s.seq.ph = .driveLowEdge := by decide

theorem witness_SentBitIsSampled : ∀ el ∈ [1049, 1050], ∀ idx ∈ [3#4, 4, 7, 8],
    let s := { at10000 .bitPeriod .tx .sampleRelease el true with seq := ⟨.bitPeriod, .sampleRelease, .tx, idx, 0⟩ }
    s.time.tLast < 10000 ∧ Legal s ∧ s.seq.st = .bitPeriod ∧ s.seq.role = .tx ∧ s.seq.ph = .sampleRelease := by decide

theorem witness_SentPeriodsAdvance : ∀ el ∈ [599, 600, 2399, 2400],
    let s := at10000 .bitPeriod .tx .fullBitWait el true
    let u := at10000 .ackWindow .tx .driveLowEdge el true
    let v := at10000 .ackWindow .tx .fullBitWait el true
    s.time.tLast < 10000 ∧ Legal s ∧ Legal u ∧ Legal v ∧ s.seq.role = .tx ∧ u.seq.role = .tx ∧
    v.seq.role = .tx ∧ s.seq.st = .bitPeriod ∧ s.seq.ph = .fullBitWait ∧ u.seq.st = .ackWindow ∧
    u.seq.ph = .driveLowEdge ∧ v.seq.st = .ackWindow ∧ v.seq.ph = .fullBitWait := by decide

theorem witness_AckSampleDecidesAttempt :
    let s := ackSample 0x4F .host .claimed 4 0 0
    s.time.tLast < 10000 ∧ Legal s ∧ s.seq.st = .ackWindow ∧ s.seq.role = .tx ∧ s.seq.ph = .sampleRelease ∧
    elapsed 10000 s = s.params.tSample ∧ ValidRead 10000 s := by decide

theorem witness_ReceivedBitIsDecoded : ∀ el ∈ [399, 400, 800, 801, 1299, 1300, 1700, 1701], ∀ idx ∈ [6#4, 7, 8],
    let s := { at10000 .bitPeriod .rx .driveLowEdge el false with seq := ⟨.bitPeriod, .driveLowEdge, .rx, idx, 0⟩ }
    s.time.tLast < 10000 ∧ Legal s ∧ s.seq.st = .bitPeriod ∧ s.seq.role = .rx ∧ s.seq.ph = .driveLowEdge ∧
    RiseSeen 10000 true s := by decide

theorem witness_ReceivedBitEndsAndAcks : ∀ el ∈ [2049, 2050, 2750, 2751],
    let s := at10000 .bitPeriod .rx .fullBitWait el true
    s.time.tLast < 10000 ∧ Legal s ∧ s.seq.st = .bitPeriod ∧ s.seq.role = .rx ∧ s.seq.ph = .fullBitWait ∧
    FallSeen 10000 false s := by decide

theorem witness_ReceivedAckDecidesFrame :
    let s := rxEnd 0x04 false
    let u := { s with
      line := ⟨true, 8500, false⟩, time := ⟨8500, 0, 9990, 0⟩, rx := { s.rx with ackMe := true } }
    s.time.tLast < 10000 ∧ Legal s ∧ s.seq.st = .ackWindow ∧ s.seq.role = .rx ∧ s.seq.ph = .driveLowEdge ∧
    RiseSeen 10000 true s ∧ Legal u ∧ u.line.driveLow = true ∧ elapsed 10000 u = u.params.tAckLow := by decide

theorem witness_ReceivedBlockFollows : ∀ el ∈ [2049, 2050, 2750, 2751],
    let s := at10000 .ackWindow .rx .fullBitWait el true
    s.time.tLast < 10000 ∧ Legal s ∧ s.seq.st = .ackWindow ∧ s.seq.role = .rx ∧ s.seq.ph = .fullBitWait ∧
    FallSeen 10000 false s := by decide

theorem witness_AttemptEndDecides : (ackSample 0x44 .poll .polling 15 0 0).tx.kind = .poll ∧
    (ackSample 0x4F .host .claimed 4 0 4).tx.kind = .host := by decide

/-- On the playback list of three candidates: index 1 goes on to 2, index 2 is the last, index 15 wraps. -/
theorem witness_NextCandidateAdvancesOrFails : [1#4, 2, 15].map (fun i =>
      decide ((i + 1).toNat < (Config.default.candidatesFor 4).length)) = [true, false, true] := by decide

/-- The applied INIT: a listed type, and one with an empty list, in both states that apply it. -/
theorem witness_LatchedInitIsApplied : ∀ st ∈ [EngineState.idle, .interframeGap], ∀ ty ∈ [4#8, 2],
    let s := { at10000 st .none .driveLowEdge 10 true with pinit := ⟨true, 0, ty, false⟩ }
    s.time.tLast < 10000 ∧ Legal s ∧ s.pinit.valid = true ∧ ¬ (s.tx.pending = true ∧ s.tx.kind = .host) ∧
    (s.params.candidatesFor ty = [] ∨ s.params.candidatesFor ty = [4, 8, 11]) := by decide

theorem witness_LatchedInitWaits :
    ((idlePending 0 0 true).tx.pending = true ∧ (idlePending 0 0 true).tx.kind = .host) ∧
    nextState (exec (.tick 2000000 true) (idlePending 0 0 true)) ≠ none ∧
    (at10000 .awaitStart .rx .driveLowEdge 10 true).seq.st ≠ .idle ∧
    (at10000 .awaitStart .rx .driveLowEdge 10 true).seq.st ≠ .interframeGap ∧
    nextState (exec (.tick 10000 true) (at10000 .awaitStart .rx .driveLowEdge 10 true)) ≠ none := by decide

/-- A claimed core presented with a TICK: the environment obeys the wired-AND. -/
theorem witness_StepKeepsInvariant :
    let s := { claimed with input := [⟨.step, [0x11, 0x0A]⟩] }
    RunInvariant s ∧ NextInputOk s ∧ nextState (step s) ≠ none := by
  refine ⟨runInvariant_of_parts, fun inp h i hd => ?_, by decide⟩
  cases h
  rw [show decode ⟨.step, [0x11, 0x0A]⟩ = .ok (.tick 10 true) by decide] at hd
  cases hd
  exact fun _ => rfl

theorem witness_ParametersNeverWritten : nextState (step (State.reset.withFetchWord 8 1)) ≠ none := by decide

theorem witness_TimeRunsForward : nextState (exec (.tick 10 true) State.reset) ≠ none ∧
    ∀ now0, Instr.tick 10 true ≠ .reset now0 := ⟨by decide, fun _ h => by cases h⟩

/-- A latched INIT that waits for a pending host frame, and a core with nothing latched. -/
theorem witness_ClaimedAddressIsImmutable :
    let s := { ackSample 0x45 .host .claimed 4 0 0 with pinit := ⟨true, 0, 4, false⟩ }
    RunInvariant s ∧ s.session.alloc = .claimed ∧ EnvOk s (.tick 10000 true) ∧
    (nextState (exec (.tick 10000 true) s)).map (fun t => t.pinit.valid) = some true ∧
    claimed.pinit.valid = false ∧ nextState (exec (.tick 10 true) claimed) ≠ none :=
  ⟨runInvariant_of_parts, rfl, by decide, by decide, by decide, by decide⟩

theorem witness_ConfigurationOnlyFromInit : (∀ now0, Instr.getLa ≠ .reset now0) ∧
    nextState (exec .getLa State.reset) ≠ none ∧ State.reset.pinit.valid = false :=
  ⟨fun _ h => (by cases h), by decide, rfl⟩

theorem witness_SilentBeforeInit : BeforeInit State.reset ∧ State.reset.time.tLast < 1 :=
  ⟨⟨rfl, rfl, rfl, rfl, rfl, rfl, by decide⟩, by decide⟩

/-- A retry, and both ways a host transmission ends, from states of the invariant (`runInvariant_ackSample_host`). -/
theorem witness_HostTransmissionEndsOnce :
    let s := ackSample 0x45 .host .claimed 4 0 4
    s.tx.pending = true ∧ s.tx.kind = .host ∧
    (nextState (exec (.tick 10000 true) s)).map (fun t => t.events.length) = some 1 ∧
    (nextState (exec (.tick 10000 false) s)).map (fun t => t.tx.outcome) = some .success ∧
    RunInvariant (ackSample 0x45 .host .claimed 4 0 0) :=
  ⟨rfl, rfl, by decide, by decide, runInvariant_of_parts⟩

theorem witness_ReadyNamesClaimedAddress :
    (nextState (exec (.tick 10000 true) (ackSample 0x44 .poll .polling 15 0 0))).map
      (fun t => decide (Event.ready 4 ∈ t.events)) = some true := by decide

theorem witness_AllocFailedLeavesNoAddress :
    (nextState (exec (.tick 10000 false) (ackSample 0xBB .poll .polling 15 2 0))).map
      (fun t => decide (Event.allocFailed ∈ t.events)) = some true := by decide

theorem witness_DeliveryIsFiltered : [rxEnd 0x05 true, rxEnd 0x0F false, rxEnd 0x04 false].map (fun s =>
      (nextState (exec (.tick 10000 true) s)).map fun t => t.events.length) = [some 1, some 1, some 1] := by decide

theorem witness_ReceiverDrivesOnlyItsAck :
    let s := { at10000 .bitPeriod .rx .fullBitWait 2400 true with
      session := ⟨.claimed, 4, 0⟩, cfg := ⟨0x3000, 4, false⟩
      seq := ⟨.bitPeriod, .fullBitWait, .rx, 8, 0⟩, rx := { State.reset.rx with ackMe := true } }
    RunInvariant s ∧ (nextState (exec (.tick 10000 false) s)).map (fun t => (t.line.driveLow, t.seq.role)) =
      some (true, .rx) := ⟨runInvariant_of_parts, by decide⟩

theorem witness_WireRowsRunTheirWaveform : 0 < (⟨100, 10⟩ : Sched).gap := by decide

theorem witness_WaveformLevels : (∀ q ∈ blockPulses Config.default 0x36 true false, q.low ≤ q.period) ∧
    (2399 < (bitPulse Config.default true).period ∧ 0 < (bitPulse Config.default true).period) := by decide

/-- A START at the edges of what the statement admits: low times 3550 and 3850 through TICKs 50 apart, on an idle core, in
the gap, and with a pending frame that the first TICK's fall forestalls. -/
theorem witness_StartSymbolIsReceived :
    (∀ s ∈ [at10000 .idle .none .driveLowEdge 10 true, at10000 .interframeGap .tx .fullBitWait 10 true,
        idlePending 12000 0 true],
      Legal s ∧ NoInitDue s ∧ LineQuiet ⟨s.time.tLast + 50, 50⟩ s ∧ (s.seq.st = .idle ∨ s.seq.st = .interframeGap) ∧
      (s.tx.pending = false ∨ s.time.tLast + 50 ≤ s.time.tLast + 50) ∧ ∀ low ∈ [3550, 3850],
        s.params.startLowMin + 50 ≤ low ∧ low + 50 ≤ s.params.startLowMax ∧ low + 50 ≤ 4700 ∧
        4700 ≤ s.params.startTotalMax) ∧ (idlePending 12000 0 true).tx.pending = true := by decide

/-- The three places where a receiver waits for a bit, the falling edges at both ends of their windows. -/
theorem witness_DataSymbolIsReceived_places :
    (∀ fall ∈ [9991, 10380],
      let s := at10000 .awaitStart .rx .fullBitWait 4310 true
      Legal s ∧ LineQuiet ⟨fall, 10⟩ s ∧ NextRxBit s 4300 4700 ⟨.bitPeriod, .fullBitWait, .rx, 0, 0⟩ s.rx ∧
      s.time.tFall + 4300 ≤ fall ∧ fall + 10 ≤ s.time.tFall + 4700) ∧
    (∀ idx ∈ [0#4, 7], ∀ fall ∈ [10001, 10400],
      let s := { openBit with seq := ⟨.bitPeriod, .fullBitWait, .rx, idx, 0⟩ }
      Legal s ∧ LineQuiet ⟨fall, 50⟩ s ∧ NextRxBit s 2050 2750 ⟨.bitPeriod, .fullBitWait, .rx, idx + 1, 0⟩ s.rx ∧
      s.time.tFall + 2050 ≤ fall ∧ fall + 50 ≤ s.time.tFall + 2750) ∧
    (∀ fall ∈ [10001, 10400],
      let s := { openBit with seq := ⟨.ackWindow, .fullBitWait, .rx, 9, 0⟩ }
      Legal s ∧ LineQuiet ⟨fall, 50⟩ s ∧ NextRxBit s 2050 2750 ⟨.bitPeriod, .fullBitWait, .rx, 0, 1⟩ s.rx ∧
      s.time.tFall + 2050 ≤ fall ∧ fall + 50 ≤ s.time.tFall + 2750) := by
  refine ⟨fun fall h => ⟨by decide, by revert fall; decide, .afterStart rfl rfl, by revert fall; decide⟩,
    fun idx hi fall h => ⟨by revert idx; decide, by revert idx fall; decide,
      .inBlock rfl rfl rfl (by revert idx; decide), by revert idx fall; decide⟩,
    fun fall h => ⟨by decide, by revert fall; decide, .nextBlock rfl rfl rfl, by revert fall; decide⟩⟩

/-- The three rows, their low times at both ends of what the statement admits through TICKs 50 apart. -/
theorem witness_DataSymbolIsReceived_rows :
    let c := Config.default
    c.oneLowMax < c.zeroLowMin ∧ c.oneLowMax ≤ c.zeroLowMax ∧
    (∀ low ∈ [450, 750], BitRow c true ⟨10001, 50⟩ (.data1 ⟨10001, 50⟩ low 2750) low 2750 ∧
      c.oneLowMin + 50 ≤ low ∧ low + 50 ≤ c.oneLowMax ∧ low + 50 ≤ 2750) ∧
    (∀ low ∈ [1350, 1650], BitRow c false ⟨10001, 50⟩ (.data0 ⟨10001, 50⟩ low 2750) low 2750 ∧
      c.zeroLowMin + 50 ≤ low ∧ low + 50 ≤ c.zeroLowMax ∧ low + 50 ≤ 2750) ∧ 2750 ≤ c.bitMax ∧
    BitRow c true ⟨10001, 50⟩ (.eom ⟨10001, 50⟩ true) c.oneLowNom c.bitNom ∧
    c.oneLowMin + 50 ≤ c.oneLowNom ∧ c.oneLowNom + 50 ≤ c.oneLowMax ∧
    BitRow c false ⟨10001, 50⟩ (.eom ⟨10001, 50⟩ false) c.zeroLowNom c.bitNom ∧
    c.zeroLowMin + 50 ≤ c.zeroLowNom ∧ c.zeroLowNom + 50 ≤ c.zeroLowMax ∧ c.bitNom ≤ c.bitMax :=
  ⟨by decide, by decide, fun low h => ⟨.data1 rfl _ _, by revert low; decide⟩,
    fun low h => ⟨.data0 rfl _ _, by revert low; decide⟩, by decide, .eom, by decide, by decide, .eom, by decide,
    by decide, by decide⟩

/-- The open EOM bit of a block, with and without this core's acknowledgement. -/
def openEom (ackMe eom : Bool) : State :=
  { openBit with
    seq := ⟨.bitPeriod, .fullBitWait, .rx, 8, 0⟩
    rx := { State.reset.rx with buf := 0x04 :: List.replicate 15 0, ackMe := ackMe, eom := eom } }

/-- An overflow: the last block `MAX_FRAME` allows, with EOM = 0 and this core's own acknowledgement. -/
theorem witness_AckSlotIsReceived_overflow :
    let s := { openEom true false with seq := ⟨.bitPeriod, .fullBitWait, .rx, 8, 15⟩ }
    Legal s ∧ LineQuiet ⟨10001, 50⟩ s ∧ NoInitDue s ∧ s.tx.pending = false ∧ s.rx.eom = false ∧
    headerDst (rxHeader s.rx) ≠ 15 ∧ s.params.maxFrame ≤ s.seq.blk.toNat + 1 := by decide

/-- The ACK slot at both ends of its window, its times at the edge of what TICKs 50 apart admit, and a pending frame where
the statement admits one. -/
theorem witness_AckSlotIsReceived : ∀ fall ∈ [10001, 10400], ∀ b ∈ [true, false],
    let s := openEom b true
    let p := { s with tx := { s.tx with pending := true, len := 1 } }
    let c := s.params
    Legal s ∧ LineQuiet ⟨fall, 50⟩ s ∧ NoInitDue s ∧ s.tx.pending = false ∧ Legal p ∧ NoInitDue p ∧ p.rx.eom = true ∧
    s.seq.st = .bitPeriod ∧ s.seq.role = .rx ∧ s.seq.ph = .fullBitWait ∧ s.seq.bitIdx = 8 ∧
    s.time.tFall + c.bitMin ≤ fall ∧ fall + 50 ≤ s.time.tFall + c.bitMax ∧
    c.oneLowMin + 50 ≤ c.oneLowNom ∧ 50 ≤ c.oneLowNom ∧ c.oneLowNom + 50 ≤ c.oneLowMax ∧
    c.oneLowMax < c.zeroLowMin ∧ c.zeroLowMin + 50 ≤ c.tAckLow ∧ c.tAckLow + c.tSettle + 2 * 50 ≤ c.zeroLowMax ∧
    c.tAckLow + c.tSettle + 3 * 50 ≤ c.bitNom ∧ c.bitNom ≤ c.bitMax := by decide

/-- A claimed core's ACK slot: pulled LOW by this core alone it reads as an ack, and without `ack_me` the released slot of a
directed block is a NAK that ends the reception in IDLE (R189, R260). -/
theorem test_ack_slot :
    (nextState (exec (.ackSlot ⟨10050, 335⟩ true)
      { openEom true false with params := { Config.default with tAckLow := 1300, bitNom := 2050 } })).map
      (fun s => (s.seq.st, s.rx.ack.head?, s.line.driveLow)) = some (.ackWindow, some true, false) ∧
    (nextState (exec (.ackSlot ⟨10050, 400⟩ true) (openEom false false))).map (fun s => s.seq.st) = some .idle := by
  decide

theorem witness_SentBitsFollowEncode : ∀ idx ∈ [0#4, 9],
    let s := { ackSample 0x45 .host .claimed 4 0 0 with seq := ⟨.bitPeriod, .driveLowEdge, .tx, idx, 0⟩ }
    s.seq.blk.toNat < s.tx.len.toNat ∧ s.tx.len.toNat ≤ s.tx.buf.length ∧ s.seq.bitIdx.toNat ≤ 9 := by decide

theorem witness_AssembleInvertsEncode : headerDst 0x4F = 15 ∧ headerDst 0x45 ≠ 15 ∧
    (List.replicate 15 (0 : Byte)).length + 1 ≤ Config.default.maxFrame := by decide

end Sys2Proof.Tests
end

section
/-! SUPPORT. What an instruction that completes can leave, said once for all rows of the opcode table
(`completes_of_exec`), and from it that time never runs backward (`00_scope.md` R12). -/

namespace Sys2Proof.Machine

/-! ### The steps that complete -/

/-- The schedule and the waveform of a wire row (`30_encoding.md` R110 to R116); the other rows have none. -/
def wireWave (c : Config) : Instr → Option (Sched × List Pulse)
  | .start sch low period | .data0 sch low period | .data1 sch low period => some (sch, [⟨low, period⟩])
  | .block sch d e a => some (sch, blockPulses c d e a)
  | .eom sch e => some (sch, [bitPulse c e])
  | .ackSlot sch a => some (sch, [ackPulse c a])
  | .header sch src dst => some (sch, bytePulses c (headerByte src dst))
  | .frame sch blocks => some (sch, framePulses c blocks)
  | .poll sch cand a => some (sch, framePulses c [(headerByte cand cand, a)])
  | _ => none

/-- The step `i` from `s` completes in `t`: one constructor for each thing a row of the opcode table can do. -/
inductive Completes (s : State) : Instr → State → Prop where
  | latched (phys : BitVec 16) (devType : BitVec 8) (prom : Bool) :
      Completes s (.init phys devType prom)
        (respond .accepted { clearPorts s with pinit := ⟨true, phys, devType, prom⟩ })
  | notReady (dest : LogAddr) (payload : List Byte) (alloc : s.session.alloc ≠ .claimed) :
      Completes s (.transmit dest payload) (respond .rejectNotReady (clearPorts s))
  | busy (dest : LogAddr) (payload : List Byte) (alloc : s.session.alloc = .claimed)
      (taken : s.tx.pending = true ∨ s.pinit.valid = true) :
      Completes s (.transmit dest payload) (respond .rejectBusy (clearPorts s))
  | tooLong (dest : LogAddr) (payload : List Byte) (alloc : s.session.alloc = .claimed)
      (free : ¬ (s.tx.pending = true ∨ s.pinit.valid = true)) (long : s.params.maxFrame - 1 < payload.length) :
      Completes s (.transmit dest payload) (respond .rejectLength (clearPorts s))
  | armed (dest : LogAddr) (payload : List Byte) (alloc : s.session.alloc = .claimed)
      (free : ¬ (s.tx.pending = true ∨ s.pinit.valid = true)) (fits : payload.length ≤ s.params.maxFrame - 1) :
      Completes s (.transmit dest payload) (respond .accepted (armHost dest payload (clearPorts s)))
  | gotLa : Completes s .getLa (respond (.logAddr s.session.la) (clearPorts s))
  | gotStatus : Completes s .getStatus (respond (.status (statusOf s)) (clearPorts s))
  | reset (now0 : Nat) : Completes s (.reset now0) (resetRegs now0 (clearPorts s))
  | ticked (now : Nat) (lineIn : Bool) (admitted : s.time.tLast < now) :
      Completes s (.tick now lineIn) (tickAt now lineIn (clearPorts s))
  | levelRead (lineIn : Bool) : Completes s (.read lineIn) (respond (.level lineIn) (clearPorts s))
  | drove (v : Bool) : Completes s (.drive v) (setDrive s.time.tLast v (clearPorts s))
  | wire (i : Instr) (sch : Sched) (pulses : List Pulse) (row : wireWave s.params i = some (sch, pulses)) :
      Completes s i (onWire sch pulses s)

/-- TRANSMIT rejects or arms its frame (`44_host_interface.md` R343). -/
theorem completes_of_execTransmit {dest : LogAddr} {payload : List Byte} {s t : State}
    (h : execTransmit dest payload s = .next t) : Completes s (.transmit dest payload) t := by
  unfold execTransmit at h
  dsimp only at h
  split_ifs at h with alloc taken long <;> cases h
  · exact .notReady dest payload alloc
  · exact .busy dest payload (not_not.mp alloc) taken
  · exact .tooLong dest payload (not_not.mp alloc) taken long
  · exact .armed dest payload (not_not.mp alloc) taken (not_lt.mp long)

/-- A step that completes does what its row of the opcode table says. -/
theorem completes_of_exec {i : Instr} {s t : State} (h : exec i s = .next t) : Completes s i t := by
  cases i with
  | transmit dest payload => exact completes_of_execTransmit h
  | reservedCmd code => cases h
  | tick now lineIn =>
    obtain ⟨admitted, rfl⟩ := execTick_eq_next h
    exact .ticked now lineIn admitted
  | init | getLa | getStatus | reset | read | drive => cases h; constructor
  | _ => cases h; exact .wire _ _ _ rfl

/-! ### Time -/

/-- Whatever a TICK does, it ends at its own time (`41_bit_timing.md` R170). -/
@[simp] theorem tickAt_tLast (now : Nat) (lineIn : Bool) (s : State) :
    (tickAt now lineIn s).time.tLast = now := by
  cases h : stuck s with
  | true => simp [tickAt_stuck h, sampleOf]
  | false => simp [tickAt_served h, serveTick_eq, sampleOf]

/-- A wire row's TICKs come one gap after the other, so it ends no earlier than it began. -/
theorem tLast_le_onWire (sch : Sched) (pulses : List Pulse) (s : State) :
    s.time.tLast ≤ (onWire sch pulses s).time.tLast := by
  refine runTicks_induction (P := fun u => s.time.tLast ≤ u.time.tLast) (fun u hu => ?_) _ _ le_rfl
  rw [tickAt_tLast]
  exact Nat.le_add_right_of_le hu

/-- Settles O44: a TICK is admitted only past `t_last` and ends at its `now`, a wire row is a run of such TICKs, and no
other row but RESET writes `t_last`. -/
theorem timeRunsForward : Obligations.TimeRunsForward := by
  intro i s t notReset h
  cases completes_of_exec h with
  | reset now0 => exact absurd rfl (notReset now0)
  | ticked now lineIn admitted =>
    rw [tickAt_tLast]
    exact ⟨admitted.le, by rintro _ _ ⟨⟩; exact ⟨admitted, rfl⟩⟩
  | wire i sch pulses row =>
    exact ⟨tLast_le_onWire sch pulses s, by rintro _ _ rfl; cases row⟩
  | drove v => exact ⟨by simp, by rintro _ _ ⟨⟩⟩
  | latched | notReady | busy | tooLong | armed | gotLa | gotStatus | levelRead => exact ⟨le_rfl, by rintro _ _ ⟨⟩⟩

end Sys2Proof.Machine
end

section
/-! SUPPORT. The run invariant as the handlers keep it (`10_state.md` R44): the registers a transmission and the address
depend on (`LinkOk`), the places where the sequencer can stand (`Stands`), and what one move of the sequencer, one end
of an attempt and one ApplyInit leave of it. Then that RESET establishes it and every step keeps it, and who writes the
configuration (R33). -/

namespace Sys2Proof.Machine

/-! ### Candidate lists -/

/-- A device type's list is part of the table. -/
theorem candidatesFor_sublist (c : Config) (devType : BitVec 8) :
    (c.candidatesFor devType).Sublist (c.candidates.flatMap Prod.snd) := by
  unfold Config.candidatesFor
  induction c.candidates with
  | nil => exact List.Sublist.slnil
  | cons row rows ih =>
    obtain ⟨ty, addrs⟩ := row
    simp only [List.lookup_cons, List.flatMap_cons]
    split
    · exact List.sublist_append_left ..
    · exact ih.trans (List.sublist_append_right ..)

/-- Addresses without a repetition and without 15 are at most fifteen. -/
theorem length_le_fifteen {l : List LogAddr} (nodup : l.Nodup) (no15 : 15#4 ∉ l) : l.length ≤ 15 := by
  have below : l.map BitVec.toNat ⊆ List.range 15 := by
    intro n hn
    obtain ⟨a, ha, rfl⟩ := List.mem_map.mp hn
    have : a ≠ 15#4 := fun h => no15 (h ▸ ha)
    exact List.mem_range.mpr (by bv_omega)
  have distinct := nodup.map fun _ _ => BitVec.eq_of_toNat_eq
  simpa using (List.subperm_of_subset distinct below).length_le

/-- `cand_idx` can count past the end of every candidate list without wrapping (`43_arbiter.md` R300, R304). -/
theorem candidatesFor_length_le {c : Config} (wf : c.Wf) (devType : BitVec 8) :
    (c.candidatesFor devType).length ≤ 15 := by
  obtain ⟨-, -, -, -, -, -, -, -, -, -, nodup, no15⟩ := wf
  have sub := candidatesFor_sublist c devType
  exact length_le_fifteen (sub.nodup nodup) fun h => no15 (sub.subset h)

/-- `00_scope.md` R9 for the two parameters that bound a transmission. -/
theorem attemptParamsOk_of_wf {c : Config} (wf : c.Wf) : AttemptParamsOk c := by
  obtain ⟨-, -, -, -, -, -, -, -, bounds, -⟩ := wf
  exact bounds

/-! ### Buffers and counters -/

/-- A frame that fits leaves the buffer's size as it is (`20_memory.md` R83). -/
theorem length_storeFrame {frame buf : List Byte} (fits : frame.length ≤ buf.length) :
    (storeFrame frame buf).length = buf.length := by
  simp [storeFrame, fits]

/-- The header of a polling frame names the polled address (`43_arbiter.md` R302). -/
theorem lowNibble_txHeader_armPoll (now : Nat) (c : LogAddr) (s : State) :
    lowNibble (txHeader (armPoll now c s).tx) = c := by
  simp [txHeader, storeFrame, headerByte]

/-- A 4-bit counter below its last value counts up by one. -/
theorem toNat_add_one {x : BitVec 4} (h : x.toNat + 1 < 16) : (x + 1).toNat = x.toNat + 1 := by
  bv_omega

/-! ### The invariant in parts -/

/-- What holds of the session and transmit registers whether or not a transmission is pending: R44's item 7, `AddressOk`
and the counters' bounds. -/
structure LinkBase (s : State) : Prop where
  claimed : s.session.alloc = .claimed → s.session.la ∈ s.params.candidatesFor s.cfg.devType
  address : AddressOk s
  candIdx : s.session.candIdx.toNat ≤ (s.params.candidatesFor s.cfg.devType).length
  len : s.tx.len.toNat ≤ s.params.maxFrame
  attempt : s.tx.attempt ≤ s.params.maxAttempts
  sft : s.tx.sft = s.params.sftAfterSuccess ∨
    (s.params.sftBase ≤ s.tx.sft ∧ s.tx.sft ≤ s.params.sftBase + (s.params.maxAttempts - 1) * s.params.sftStep)
  outcome : s.tx.outcome ≠ .code6 ∧ s.tx.outcome ≠ .code7

/-- What holds of these registers wherever the sequencer stands: with `LinkBase`, R44's items 5 and 6 and what
`SendingOk` says of a pending poll and a pending host frame. -/
structure LinkOk (s : State) : Prop extends LinkBase s where
  pending : PendingOk s
  polling : s.tx.kind = .poll → s.tx.pending = true → s.session.alloc = .polling
  candidate : s.tx.kind = .poll → s.tx.pending = true →
    (s.params.candidatesFor s.cfg.devType)[s.session.candIdx.toNat]? = some (lowNibble (txHeader s.tx))
  host : s.tx.kind = .host → s.tx.pending = true → s.session.alloc = .claimed

/-- Where the sequencer can stand: one constructor for each state and role of R172's table, with what R44 (1 to 4) and
the counters' ranges (R35) say of that place. A premise that `simp` finds among the hypotheses need not be given. -/
inductive Stands (s : State) : Prop where
  | idle (st : s.seq.st = .idle := by simp [*]) (role : s.seq.role = .none := by simp [*])
      (released : s.line.driveLow = false := by simp [*])
  | gap (st : s.seq.st = .interframeGap := by simp [*]) (role : s.seq.role ≠ .code3 := by simp [*])
      (released : s.line.driveLow = false := by simp [*])
  | awaitStart (st : s.seq.st = .awaitStart := by simp [*]) (role : s.seq.role = .rx := by simp [*])
      (ph : s.seq.ph = .driveLowEdge ∨ s.seq.ph = .fullBitWait := by simp [*])
      (released : s.line.driveLow = false := by simp [*])
  | sendStart (st : s.seq.st = .sendStart := by simp [*]) (role : s.seq.role = .tx := by simp [*])
      (driving : s.line.driveLow = true → s.seq.ph = .driveLowEdge := by simp_all)
      (pending : s.tx.pending = true := by simp [*]) (block : s.seq.blk.toNat < s.tx.len.toNat := by simp_all)
      (first : s.seq.bitIdx = 0 ∧ s.seq.blk = 0 := by simp [*])
  | txBit (st : s.seq.st = .bitPeriod := by simp [*]) (role : s.seq.role = .tx := by simp [*])
      (driving : s.line.driveLow = true → s.seq.ph = .driveLowEdge := by simp_all)
      (pending : s.tx.pending = true := by simp [*]) (block : s.seq.blk.toNat < s.tx.len.toNat := by simp_all)
      (bit : s.seq.bitIdx.toNat ≤ 8 := by simp [*])
  | txAck (st : s.seq.st = .ackWindow := by simp [*]) (role : s.seq.role = .tx := by simp [*])
      (driving : s.line.driveLow = true → s.seq.ph = .driveLowEdge := by simp_all)
      (pending : s.tx.pending = true := by simp [*]) (block : s.seq.blk.toNat < s.tx.len.toNat := by simp_all)
      (more : s.seq.ph = .fullBitWait → s.seq.blk.toNat + 1 < s.tx.len.toNat := by simp_all)
  | rxBit (st : s.seq.st = .bitPeriod := by simp [*]) (role : s.seq.role = .rx := by simp [*])
      (ph : s.seq.ph = .driveLowEdge ∨ s.seq.ph = .fullBitWait := by simp [*])
      (released : s.line.driveLow = false := by simp [*])
      (bit : s.seq.bitIdx.toNat ≤ 8 := by simp [*])
  | rxAck (st : s.seq.st = .ackWindow := by simp [*]) (role : s.seq.role = .rx := by simp [*])
      (ph : s.seq.ph = .driveLowEdge ∨ s.seq.ph = .fullBitWait := by simp [*])
      (driving : s.line.driveLow = true → s.seq.ph = .driveLowEdge ∧ s.rx.ackMe = true := by simp_all)
      (more : s.seq.ph = .fullBitWait → s.seq.blk.toNat + 1 < s.params.maxFrame := by simp_all)

/-- The ranges the sequencer's and the receiver's registers keep everywhere (R35, R38). -/
structure RangesOk (s : State) : Prop where
  ph : s.seq.ph ≠ .code3
  bitIdx : s.seq.bitIdx.toNat ≤ 9
  blk : s.seq.blk.toNat < s.params.maxFrame
  rxLen : s.rx.len.toNat ≤ s.params.maxFrame

/-- No timestamp lies after `now` (`41_bit_timing.md` R199). -/
structure StampsBy (now : Nat) (s : State) : Prop where
  tFall : s.time.tFall ≤ now
  tFree : s.time.tFree ≤ now
  tAttempt : s.time.tAttempt ≤ now
  tDrive : s.line.tDrive ≤ now

/-- The run invariant inside a TICK at `now`, before its epilogue has moved `t_last` there. -/
structure KeptBy (now : Nat) (s : State) : Prop where
  params : s.params.Wf
  link : LinkOk s
  stands : Stands s
  ranges : RangesOk s
  buffers : BuffersOk s
  stamps : StampsBy now s

/-- The table of R172 selects a handler exactly for the combinations `InTable` lists. -/
theorem selectHandler_ne_none_iff {q : SeqRegs} : selectHandler q.st q.role q.ph ≠ .none ↔ InTable q := by
  obtain ⟨st, ph, role, bitIdx, blk⟩ := q
  cases st <;> cases role <;> cases ph <;> simp [InTable, selectHandler]

/-- The codes no rule writes, register by register. -/
theorem codesOk_iff {s : State} :
    CodesOk s ↔ (s.seq.st ≠ .code6 ∧ s.seq.st ≠ .code7) ∧ s.seq.ph ≠ .code3 ∧ s.seq.role ≠ .code3 ∧
      s.tx.outcome ≠ .code6 ∧ s.tx.outcome ≠ .code7 := by
  simp only [CodesOk, unwrittenCode, Bool.or_eq_false_iff, beq_eq_false_iff_ne, and_assoc]

/-- In R172's table under R44 the sequencer stands at one of the places of `Stands`. -/
theorem stands_of_runInvariant {s : State} (h : RunInvariant s) : Stands s := by
  obtain ⟨⟨⟨sendTx, txSt, awaitRx, idleNone⟩, drive, -, -⟩, -, codes, table, -, -, ⟨sending, -⟩, -, -⟩ := h
  obtain ⟨inTable, -, -, bit, first, block, moreTx, moreRx⟩ := table
  obtain ⟨-, -, role3, -⟩ := codesOk_iff.mp codes
  rw [selectHandler_ne_none_iff] at inTable
  cases st : s.seq.st with
  | idle => exact .idle (role := idleNone st) (released := by simpa [DriveOk, st] using drive)
  | interframeGap => exact .gap (released := by simpa [DriveOk, st] using drive)
  | awaitStart =>
    exact .awaitStart (role := awaitRx st) (ph := by simpa [InTable, st] using inTable)
      (released := by simpa [DriveOk, st] using drive)
  | sendStart =>
    have role := sendTx st
    exact .sendStart (driving := by simpa [DriveOk, st, role] using drive) (pending := sending role (by simp [st]))
      (block := block role (by simp [st])) (first := first st)
  | bitPeriod =>
    cases role : s.seq.role with
    | tx =>
      exact .txBit (driving := by simpa [DriveOk, st, role] using drive) (pending := sending role (by simp [st]))
        (block := block role (by simp [st])) (bit := bit st)
    | rx =>
      exact .rxBit (ph := by simpa [InTable, st, role] using inTable)
        (released := by simpa [DriveOk, st, role] using drive) (bit := bit st)
    | none | code3 => simp [InTable, st, role] at inTable
  | ackWindow =>
    cases role : s.seq.role with
    | tx =>
      exact .txAck (driving := by simpa [DriveOk, st, role] using drive) (pending := sending role (by simp [st]))
        (block := block role (by simp [st])) (more := fun ph => moreTx st ph role)
    | rx =>
      exact .rxAck (ph := by simpa [InTable, st, role] using inTable)
        (driving := by simpa [DriveOk, st, role] using drive) (more := fun ph => moreRx st ph role)
    | none | code3 => simp [InTable, st, role] at inTable
  | code6 | code7 => simp [InTable, st] at inTable

/-- Wherever the sequencer stands, `st` and `role` go together (R44, 1 to 3). -/
theorem Stands.seqOk {s : State} (h : Stands s) : SeqOk s.seq := by
  cases h <;> simp [SeqOk, *]

/-- Wherever the sequencer stands, the drive is allowed there (R44, 4). -/
theorem Stands.driveOk {s : State} (h : Stands s) : DriveOk s := by
  cases h <;> simp_all [DriveOk]

/-- Wherever the sequencer stands, its counters are in the range of that place. -/
theorem Stands.tableOk {s : State} (h : Stands s) (ranges : RangesOk s) : TableOk s := by
  obtain ⟨ph, bitIdx, blk, -⟩ := ranges
  have inTable : InTable s.seq := by
    cases h <;> cases hp : s.seq.ph <;> simp_all [InTable]
  refine ⟨selectHandler_ne_none_iff.mpr inTable, bitIdx, blk, ?_⟩
  cases h <;> simp_all

/-- While the core sends, a transmission is pending (R298). -/
theorem Stands.sending {s : State} (h : Stands s) (role : s.seq.role = .tx) (st : s.seq.st ≠ .interframeGap) :
    s.tx.pending = true := by
  cases h <;> simp_all

/-- The sequencer stands at a place whose codes a rule writes. -/
theorem Stands.codes {s : State} (h : Stands s) :
    (s.seq.st ≠ .code6 ∧ s.seq.st ≠ .code7) ∧ s.seq.role ≠ .code3 := by
  cases h <;> simp [*]

/-- Between two steps the run invariant is `KeptBy` at `t_last`. -/
theorem runInvariant_iff {s : State} : RunInvariant s ↔ KeptBy s.time.tLast s := by
  constructor
  · intro h
    obtain ⟨-, ph, -, outcome⟩ := codesOk_iff.mp h.codes
    obtain ⟨-, bitIdx, blk, -⟩ := h.table
    obtain ⟨tFall, tFree, tAttempt, tDrive⟩ := h.stamps
    obtain ⟨-, candidate, host⟩ := h.sending
    obtain ⟨candIdx, rxLen, txLen, attempt, sft⟩ := h.counters
    obtain ⟨polling, claimed⟩ := h.session
    have link : LinkOk s :=
      ⟨⟨claimed, h.address, candIdx, txLen, attempt, sft, outcome⟩, h.pending, polling, candidate, host⟩
    exact ⟨h.params, link, stands_of_runInvariant h, ⟨ph, bitIdx, blk, rxLen⟩, h.buffers,
      ⟨tFall, tFree, tAttempt, tDrive⟩⟩
  · rintro ⟨params, link, stands, ranges, buffers, ⟨tFall, tFree, tAttempt, tDrive⟩⟩
    obtain ⟨st, role⟩ := stands.codes
    exact
      { seq := stands.seqOk
        drive := stands.driveOk
        pending := link.pending
        session := ⟨link.polling, link.claimed⟩
        params := params
        codes := codesOk_iff.mpr ⟨st, ranges.ph, role, link.outcome⟩
        table := stands.tableOk ranges
        buffers := buffers
        stamps := ⟨tFall, tFree, tAttempt, tDrive⟩
        sending := ⟨stands.sending, link.candidate, link.host⟩
        address := link.address
        counters := ⟨link.candIdx, ranges.rxLen, link.len, link.attempt, link.sft⟩ }

/-! ### Arming and ending a transmission -/

/-- With nothing pending, `LinkBase` is all there is to keep. -/
theorem LinkBase.linkOk {s : State} (h : LinkBase s) (free : s.tx.pending = false) : LinkOk s where
  toLinkBase := h
  pending := by simp [PendingOk, free]
  polling := by simp [free]
  candidate := by simp [free]
  host := by simp [free]

/-- The first wait of a transmission is one R291 gives. -/
theorem armedSft_bounds (c : Config) (postSuccess : Bool) :
    armedSft c postSuccess = c.sftAfterSuccess ∨
      (c.sftBase ≤ armedSft c postSuccess ∧
        armedSft c postSuccess ≤ c.sftBase + (c.maxAttempts - 1) * c.sftStep) := by
  cases postSuccess <;> simp [armedSft]

/-- ArmPoll sends to the candidate `cand_idx` points at (`43_arbiter.md` R302). -/
theorem LinkBase.armPoll {s : State} (h : LinkBase s) (wf : s.params.Wf) (now : Nat) {c : LogAddr}
    (polling : s.session.alloc = .polling)
    (candidate : (s.params.candidatesFor s.cfg.devType)[s.session.candIdx.toNat]? = some c) :
    LinkOk (armPoll now c s) := by
  obtain ⟨attempts, frame, -⟩ := attemptParamsOk_of_wf wf
  refine { claimed := h.claimed, address := h.address, candIdx := h.candIdx, len := frame, attempt := Nat.zero_le _,
           sft := armedSft_bounds _ _, outcome := h.outcome, pending := fun _ => ⟨le_rfl, frame, attempts⟩,
           polling := fun _ _ => polling, candidate := fun _ _ => ?_, host := by rintro ⟨⟩ }
  rw [lowNibble_txHeader_armPoll]
  exact candidate

/-- An accepted TRANSMIT arms a frame of a claimed core (`44_host_interface.md` R343). -/
theorem LinkBase.armHost {s : State} (h : LinkBase s) (wf : s.params.Wf) (dest : LogAddr) {payload : List Byte}
    (alloc : s.session.alloc = .claimed) (fits : payload.length ≤ s.params.maxFrame - 1) :
    LinkOk (armHost dest payload s) := by
  obtain ⟨attempts, frame, small⟩ := attemptParamsOk_of_wf wf
  have len : (BitVec.ofNat 5 (payload.length + 1)).toNat = payload.length + 1 := by
    rw [BitVec.toNat_ofNat]; omega
  obtain ⟨nonempty, inFrame⟩ : 1 ≤ (BitVec.ofNat 5 (payload.length + 1)).toNat ∧
      (BitVec.ofNat 5 (payload.length + 1)).toNat ≤ s.params.maxFrame := by omega
  exact { claimed := h.claimed, address := h.address, candIdx := h.candIdx, len := inFrame, attempt := Nat.zero_le _,
          sft := armedSft_bounds _ _, outcome := h.outcome, pending := fun _ => ⟨nonempty, inFrame, attempts⟩,
          polling := by rintro ⟨⟩, candidate := by rintro ⟨⟩, host := fun _ _ => alloc }

theorem LinkBase.recordOutcome {s : State} (h : LinkBase s) {o : TxOutcome} (written : o ≠ .code6 ∧ o ≠ .code7) :
    LinkBase (recordOutcome o s) :=
  { h with outcome := written }

theorem LinkBase.countAttempt {s : State} (h : LinkBase s) (left : s.tx.attempt < s.params.maxAttempts) :
    LinkBase (countAttempt s) :=
  { h with attempt := left }

/-- An allocation that ends without an address leaves none (R304, R306). -/
theorem LinkBase.allocFail {s : State} (h : LinkBase s) (la : s.session.la = 15) : LinkOk (allocFail s) :=
  LinkBase.linkOk { h with claimed := by rintro ⟨⟩, address := fun _ => la } rfl

/-- The claimed address is the candidate that was polled (R305). -/
theorem LinkBase.claim {s : State} (h : LinkBase s) {c : LogAddr}
    (candidate : c ∈ s.params.candidatesFor s.cfg.devType) : LinkOk (claim c s) :=
  LinkBase.linkOk { h with claimed := fun _ => candidate, address := fun free => absurd rfl free } rfl

theorem LinkBase.completeTx {s : State} (h : LinkBase s) (ok : Bool) (o : TxOutcome) : LinkOk (completeTx ok o s) :=
  LinkBase.linkOk { h with } rfl

/-- NextCandidate moves `cand_idx` one further, at most to the list's end (R304, R199). -/
theorem LinkBase.nextCandidate {s : State} (h : LinkBase s) (wf : s.params.Wf) (now : Nat)
    (polling : s.session.alloc = .polling)
    (inside : s.session.candIdx.toNat < (s.params.candidatesFor s.cfg.devType).length) :
    LinkOk (nextCandidate now s) := by
  have short := candidatesFor_length_le wf s.cfg.devType
  have next : (s.session.candIdx + 1).toNat = s.session.candIdx.toNat + 1 := toNat_add_one (by omega)
  have base : LinkBase (advanceIdx s) := { h with candIdx := next ▸ inside }
  rcases nextCandidate_cases now s with ⟨-, h'⟩ | ⟨c, candidate, -, h'⟩ <;> rw [h']
  · exact base.allocFail (h.address (by simp [polling]))
  · exact base.armPoll wf now polling candidate

/-- A retry waits longer, within R291's bounds (R298). -/
theorem LinkOk.rearm {s : State} (h : LinkOk s) (now : Nat) {o : TxOutcome} (written : o ≠ .code6 ∧ o ≠ .code7)
    (left : s.tx.attempt + 1 < s.params.maxAttempts) : LinkOk (rearm now (countAttempt (recordOutcome o s))) := by
  have wait : (s.tx.attempt + 1) * s.params.sftStep ≤ (s.params.maxAttempts - 1) * s.params.sftStep :=
    Nat.mul_le_mul_right _ (Nat.le_sub_one_of_lt left)
  exact { h with
    attempt := left.le, outcome := written, sft := .inr ⟨Nat.le_add_right .., Nat.add_le_add_left wait _⟩
    pending := fun busy => by obtain ⟨nonempty, frame, -⟩ := h.pending busy; exact ⟨nonempty, frame, left⟩ }

/-- However an attempt ends, the session and transmit registers stay in the invariant (R298). -/
theorem LinkOk.attemptEnd {s : State} (h : LinkOk s) (wf : s.params.Wf) (now : Nat) {o : TxOutcome}
    (written : o ≠ .code6 ∧ o ≠ .code7) (pending : s.tx.pending = true) : LinkOk (attemptEnd now o s) := by
  obtain ⟨-, -, left⟩ := h.pending pending
  have base := h.toLinkBase.recordOutcome written
  have counted := base.countAttempt left
  have inside (kind : s.tx.kind = .poll) :
      s.session.candIdx.toNat < (s.params.candidatesFor s.cfg.devType).length :=
    (List.getElem?_eq_some_iff.mp (h.candidate kind pending)).1
  rcases attemptEnd_cases now o s with ⟨kind, -, h'⟩ | ⟨kind, -, h'⟩ | ⟨kind, -, -, -, h'⟩ | ⟨-, -, h'⟩ |
    ⟨-, -, -, h'⟩ | ⟨-, -, more, h'⟩ <;> rw [h']
  · exact base.nextCandidate wf now (h.polling kind pending) (inside kind)
  · exact base.claim (List.mem_of_getElem? (h.candidate kind pending))
  · exact counted.nextCandidate wf now (h.polling kind pending) (inside kind)
  · exact base.completeTx ..
  · exact counted.completeTx ..
  · exact h.rearm now written more

/-- ApplyInit releases the address, and polls the first candidate of the new device type or fails (R342). -/
theorem LinkBase.applyInit {s : State} (h : LinkBase s) (wf : s.params.Wf) (now : Nat) : LinkOk (applyInit now s) := by
  rcases applyInit_cases now s with ⟨-, h'⟩ | ⟨c, rest, list, h'⟩ <;> rw [h']
  · exact LinkBase.linkOk
      { h with claimed := by rintro ⟨⟩, address := fun _ => rfl, candIdx := Nat.zero_le _ } rfl
  · have base : LinkBase (beginPolling (releaseSession s)) :=
      { h with claimed := by rintro ⟨⟩, address := fun _ => rfl, candIdx := Nat.zero_le _ }
    exact base.armPoll wf now rfl (by simp [list])

/-! ### Buffers -/

@[simp] theorem length_clearAcks (c : Config) : (clearAcks c).length = c.maxFrame := List.length_replicate

theorem armPoll_buffersOk {s : State} (h : BuffersOk s) (wf : s.params.Wf) (now : Nat) (c : LogAddr) :
    BuffersOk (armPoll now c s) := by
  obtain ⟨-, frame, -⟩ := attemptParamsOk_of_wf wf
  obtain ⟨rxBuf, rxAck, txBuf, -⟩ := h
  exact ⟨rxBuf, rxAck, (length_storeFrame (txBuf ▸ frame)).trans txBuf, length_clearAcks _⟩

theorem nextCandidate_buffersOk {s : State} (h : BuffersOk s) (wf : s.params.Wf) (now : Nat) :
    BuffersOk (nextCandidate now s) := by
  rcases nextCandidate_cases now s with ⟨-, h'⟩ | ⟨c, -, -, h'⟩ <;> rw [h']
  · exact h
  · exact armPoll_buffersOk (s := advanceIdx s) h wf now c

theorem attemptEnd_buffersOk {s : State} (h : BuffersOk s) (wf : s.params.Wf) (now : Nat) (o : TxOutcome) :
    BuffersOk (attemptEnd now o s) := by
  rcases attemptEnd_cases now o s with ⟨-, -, h'⟩ | ⟨-, -, h'⟩ | ⟨-, -, -, -, h'⟩ | ⟨-, -, h'⟩ | ⟨-, -, -, h'⟩ |
    ⟨-, -, -, h'⟩ <;> rw [h']
  · exact nextCandidate_buffersOk (s := recordOutcome o s) h wf now
  · exact h
  · exact nextCandidate_buffersOk (s := countAttempt (recordOutcome o s)) h wf now
  all_goals exact h

theorem applyInit_buffersOk {s : State} (h : BuffersOk s) (wf : s.params.Wf) (now : Nat) :
    BuffersOk (applyInit now s) := by
  rcases applyInit_cases now s with ⟨-, h'⟩ | ⟨c, rest, -, h'⟩ <;> rw [h']
  · exact h
  · exact armPoll_buffersOk (s := beginPolling (releaseSession s)) h wf now c

/-! ### Timestamps -/

/-- NextCandidate counts the waiting time from now, or leaves it. -/
theorem nextCandidate_tAttempt (now : Nat) (s : State) :
    (nextCandidate now s).time.tAttempt = s.time.tAttempt ∨ (nextCandidate now s).time.tAttempt = now := by
  rcases nextCandidate_cases now s with ⟨-, h'⟩ | ⟨c, -, -, h'⟩ <;> rw [h']
  · exact .inl rfl
  · exact .inr rfl

/-- AttemptEnd counts the next waiting time from now, or leaves it (R298). -/
theorem attemptEnd_tAttempt (now : Nat) (o : TxOutcome) (s : State) :
    (attemptEnd now o s).time.tAttempt = s.time.tAttempt ∨ (attemptEnd now o s).time.tAttempt = now := by
  rcases attemptEnd_cases now o s with ⟨-, -, h'⟩ | ⟨-, -, h'⟩ | ⟨-, -, -, -, h'⟩ | ⟨-, -, h'⟩ | ⟨-, -, -, h'⟩ |
    ⟨-, -, -, h'⟩ <;> rw [h']
  · exact nextCandidate_tAttempt now (recordOutcome o s)
  · exact .inl rfl
  · exact nextCandidate_tAttempt now (countAttempt (recordOutcome o s))
  · exact .inl rfl
  · exact .inl rfl
  · exact .inr rfl

/-- `SetDrive` at `now` stamps `t_drive` with `now`, or leaves it (`40_line_interface.md` R152). -/
@[simp] theorem driven_tDrive (now : Nat) (v : Bool) (r : LineRegs) :
    (driven now v r).tDrive = r.tDrive ∨ (driven now v r).tDrive = now := by
  unfold driven; split
  · exact .inl rfl
  · exact .inr rfl

/-! ### One move of the sequencer -/

/-- What a step that ends no attempt leaves or sets within the ranges: a move of the sequencer with its stamps and the
receiver's writes. Every field `simp` proves need not be given. -/
structure Moves (now : Nat) (t s : State) : Prop where
  params : t.params = s.params := by simp
  cfg : t.cfg = s.cfg := by simp
  session : t.session = s.session := by simp
  tx : t.tx = s.tx := by simp
  ph : t.seq.ph = s.seq.ph ∨ t.seq.ph ≠ .code3 := by simp
  bitIdx : t.seq.bitIdx = s.seq.bitIdx ∨ t.seq.bitIdx.toNat ≤ 9 := by simp
  blk : t.seq.blk = s.seq.blk ∨ t.seq.blk.toNat < s.params.maxFrame := by simp
  rxLen : t.rx.len = s.rx.len ∨ t.rx.len.toNat ≤ s.params.maxFrame := by simp
  rxBuf : t.rx.buf.length = s.rx.buf.length := by simp
  rxAck : t.rx.ack.length = s.rx.ack.length ∨ t.rx.ack.length = s.params.maxFrame := by simp
  tFall : t.time.tFall = s.time.tFall ∨ t.time.tFall = now := by simp
  tFree : t.time.tFree = s.time.tFree ∨ t.time.tFree = now := by simp
  tAttempt : t.time.tAttempt = s.time.tAttempt := by simp
  tDrive : t.line.tDrive = s.line.tDrive ∨ t.line.tDrive = now := by simp

/-- `LinkOk` speaks of four groups of registers only. -/
theorem LinkOk.of_eq {s t : State} (h : LinkOk s) (params : t.params = s.params) (cfg : t.cfg = s.cfg)
    (session : t.session = s.session) (tx : t.tx = s.tx) : LinkOk t := by
  cases s; cases t; subst params cfg session tx
  exact { h with }

/-- A move that ends at a place of the sequencer keeps the invariant. -/
theorem KeptBy.move {now : Nat} {s t : State} (h : KeptBy now s) (m : Moves now t s) (stands : Stands t) :
    KeptBy now t where
  params := m.params ▸ h.params
  link := h.link.of_eq m.params m.cfg m.session m.tx
  stands := stands
  ranges :=
    { ph := m.ph.elim (fun e => e ▸ h.ranges.ph) id
      bitIdx := m.bitIdx.elim (fun e => e ▸ h.ranges.bitIdx) id
      blk := m.params ▸ m.blk.elim (fun e => e ▸ h.ranges.blk) id
      rxLen := m.params ▸ m.rxLen.elim (fun e => e ▸ h.ranges.rxLen) id }
  buffers := by
    obtain ⟨rxBuf, rxAck, txBuf, txAck⟩ := h.buffers
    rw [BuffersOk, m.params, m.tx, m.rxBuf]
    exact ⟨rxBuf, m.rxAck.elim (·.trans rxAck) id, txBuf, txAck⟩
  stamps :=
    { tFall := m.tFall.elim (·.trans_le h.stamps.tFall) Eq.le
      tFree := m.tFree.elim (·.trans_le h.stamps.tFree) Eq.le
      tAttempt := m.tAttempt.trans_le h.stamps.tAttempt
      tDrive := m.tDrive.elim (·.trans_le h.stamps.tDrive) Eq.le }

/-- The sequencer's place depends on few registers, and while the core does not send, on none of the transmit ones. -/
theorem Stands.of_eq {s t : State} (h : Stands s) (params : t.params = s.params) (seq : t.seq = s.seq)
    (driveLow : t.line.driveLow = s.line.driveLow) (ackMe : t.rx.ackMe = s.rx.ackMe)
    (tx : (s.seq.role ≠ .tx ∨ s.seq.st = .interframeGap) ∨
      (t.tx.pending = s.tx.pending ∧ t.tx.len = s.tx.len)) : Stands t := by
  have same (role : s.seq.role = .tx) (st : s.seq.st ≠ .interframeGap) :
      t.tx.pending = s.tx.pending ∧ t.tx.len = s.tx.len :=
    tx.resolve_left (by simp [role, st])
  cases h with
  | idle => exact .idle
  | gap => exact .gap
  | awaitStart => exact .awaitStart
  | sendStart st role => obtain ⟨pending, len⟩ := same role (by simp [st]); exact .sendStart
  | txBit st role => obtain ⟨pending, len⟩ := same role (by simp [st]); exact .txBit
  | txAck st role => obtain ⟨pending, len⟩ := same role (by simp [st]); exact .txAck
  | rxBit => exact .rxBit
  | rxAck => exact .rxAck

/-- The acks and `post_success` of a transmission carry nothing of the invariant but the record's size. -/
theorem KeptBy.recordTx {now : Nat} {s : State} (h : KeptBy now s) {acks : List Bool}
    (size : acks.length = s.params.maxFrame) (post : Bool) :
    KeptBy now { s with tx := { s.tx with ack := acks, postSuccess := post } } := by
  obtain ⟨rxBuf, rxAck, txBuf, -⟩ := h.buffers
  exact { h with
    link := { h.link with }
    stands := h.stands.of_eq rfl rfl rfl rfl (.inr ⟨rfl, rfl⟩)
    ranges := { h.ranges with }
    buffers := ⟨rxBuf, rxAck, txBuf, size⟩
    stamps := { h.stamps with } }

/-- The end of an attempt keeps the invariant once the core no longer sends (R298). -/
theorem KeptBy.attemptEnd {now : Nat} {s : State} (h : KeptBy now s) {o : TxOutcome}
    (written : o ≠ .code6 ∧ o ≠ .code7) (pending : s.tx.pending = true)
    (ended : s.seq.role ≠ .tx ∨ s.seq.st = .interframeGap) : KeptBy now (attemptEnd now o s) := by
  obtain ⟨params, -, seq, line, rx, -, -, -, tFall, tFree, -⟩ := attemptEnd_frame now o s
  exact
    { params := params ▸ h.params
      link := h.link.attemptEnd h.params now written pending
      stands := h.stands.of_eq params seq (by rw [line]) (by rw [rx]) (.inl ended)
      ranges := by
        obtain ⟨ph, bitIdx, blk, rxLen⟩ := h.ranges
        constructor <;> simpa only [seq, rx, params]
      buffers := attemptEnd_buffersOk h.buffers h.params now o
      stamps :=
        { tFall := tFall.trans_le h.stamps.tFall
          tFree := tFree.trans_le h.stamps.tFree
          tAttempt := (attemptEnd_tAttempt now o s).elim (·.trans_le h.stamps.tAttempt) Eq.le
          tDrive := line ▸ h.stamps.tDrive } }

/-! ### The handlers -/

/-- RxError leads to IDLE with the line released, from wherever it is called (R191). -/
theorem KeptBy.rxError {now : Nat} {s : State} (h : KeptBy now s) : KeptBy now (rxError now s) :=
  h.move {} .idle

/-- Another participant's start bit is awaited with the line released (R173, R174). -/
theorem KeptBy.enterAwaitStart {now : Nat} {s : State} (h : KeptBy now s) (released : s.line.driveLow = false) :
    KeptBy now (enterAwaitStart now s) := by
  obtain ⟨-, -, -, txAck⟩ := h.buffers
  exact (h.recordTx txAck false).move {} .awaitStart

/-- A decoded bit changes the receiver's datapath only, and no length in it (R187). -/
theorem recordRxBit_moves (now : Nat) (v : Bool) (s : State) : Moves now (recordRxBit v s) s := by
  unfold recordRxBit
  dsimp only
  split_ifs <;> exact {}

@[simp] theorem recordRxBit_seq (v : Bool) (s : State) : (recordRxBit v s).seq = s.seq := by
  unfold recordRxBit
  dsimp only
  split_ifs <;> rfl

@[simp] theorem recordRxBit_line (v : Bool) (s : State) : (recordRxBit v s).line = s.line := by
  unfold recordRxBit
  dsimp only
  split_ifs <;> rfl

section Handlers

variable {p : Sample} {s : State} (h : KeptBy p.now s)

include h

/-! Each handler of R173 to R190 keeps the invariant at the place of the sequencer R172 selects it for. -/

theorem handleIdle_keeps (st : s.seq.st = .idle) (role : s.seq.role = .none) (released : s.line.driveLow = false) :
    KeptBy p.now (handleIdle p s) := by
  unfold handleIdle
  split_ifs with fall late free
  · exact h.enterAwaitStart released
  · rw [Bool.and_eq_true] at late
    exact h.attemptEnd (by simp) late.1 (by simp [role])
  · rw [Bool.and_eq_true] at free
    obtain ⟨pending, -⟩ := free
    obtain ⟨nonempty, -, -⟩ := h.link.pending pending
    obtain ⟨-, frame, -⟩ := attemptParamsOk_of_wf h.params
    exact (h.recordTx (length_clearAcks _) s.tx.postSuccess).move { blk := .inr (by simpa) }
      (.sendStart (block := by simpa))
  · exact h

theorem handleGap_keeps (released : s.line.driveLow = false) : KeptBy p.now (handleGap p s) := by
  unfold handleGap
  split_ifs
  · exact h.enterAwaitStart released
  · exact h.move {} .idle
  · exact h

section Sending

variable (role : s.seq.role = .tx) (pending : s.tx.pending = true) (block : s.seq.blk.toNat < s.tx.len.toNat)

include role pending block

theorem handleSendStart_keeps (st : s.seq.st = .sendStart)
    (driving : s.line.driveLow = true → s.seq.ph = .driveLowEdge) (first : s.seq.bitIdx = 0 ∧ s.seq.blk = 0) :
    KeptBy p.now (handleSendStart p s) := by
  unfold handleSendStart
  split_ifs
  · exact h.move {} .sendStart
  · exact h
  · exact h.move {} .sendStart
  · have idle : KeptBy p.now (goTo .idle .none (setDrive p.now false s)) := h.move {} .idle
    exact idle.attemptEnd (by simp) (by simpa) (by simp)
  · exact h

theorem handleSendStartEnd_keeps (first : s.seq.bitIdx = 0 ∧ s.seq.blk = 0) :
    KeptBy p.now (handleSendStartEnd p s) := by
  unfold handleSendStartEnd
  split_ifs
  · exact h.move {} .txBit
  · exact h

theorem handleTxBitLow_keeps (st : s.seq.st = .bitPeriod) (bit : s.seq.bitIdx.toNat ≤ 8) :
    KeptBy p.now (handleTxBitLow p s) := by
  unfold handleTxBitLow
  generalize (if txBit s.seq s.tx then s.params.oneLowNom else s.params.zeroLowNom) = low
  split_ifs
  · exact h.move {} .txBit
  · exact h

theorem handleTxBitSample_keeps (st : s.seq.st = .bitPeriod) (released : s.line.driveLow = false)
    (bit : s.seq.bitIdx.toNat ≤ 8) : KeptBy p.now (handleTxBitSample p s) := by
  unfold handleTxBitSample
  dsimp only
  split_ifs
  · have receiver : KeptBy p.now (clearRxRecord { s with seq := { s.seq with role := .rx, ph := .driveLowEdge } }) :=
      h.move {} .rxBit
    exact receiver.attemptEnd (by simp) pending (by simp)
  · have idle : KeptBy p.now (goTo .idle .none s) := h.move {} .idle
    exact idle.attemptEnd (by simp) pending (by simp)
  · exact h.move {} .txBit
  · exact h.move {} .txBit
  · exact h

theorem handleTxBitEnd_keeps (bit : s.seq.bitIdx.toNat ≤ 8) : KeptBy p.now (handleTxBitEnd p s) := by
  have next : (s.seq.bitIdx + 1).toNat = s.seq.bitIdx.toNat + 1 := toNat_add_one (by omega)
  have range : (s.seq.bitIdx + 1).toNat ≤ 9 := by omega
  unfold handleTxBitEnd
  dsimp only
  split_ifs with due last
  · exact h.move { bitIdx := .inr (by simpa) } .txAck
  · exact h.move { bitIdx := .inr (by simpa) } (.txBit (bit := by simp; bv_omega))
  · exact h

theorem handleTxAckLow_keeps (st : s.seq.st = .ackWindow) : KeptBy p.now (handleTxAckLow p s) := by
  unfold handleTxAckLow
  split_ifs
  · exact h.move {} .txAck
  · exact h

theorem handleTxAckSample_keeps (st : s.seq.st = .ackWindow) (released : s.line.driveLow = false) :
    KeptBy p.now (handleTxAckSample p s) := by
  obtain ⟨-, -, -, txAck⟩ := h.buffers
  unfold handleTxAckSample
  dsimp only
  generalize ackOf (directed (txHeader s.tx)) p.lineIn = ack
  have recorded : KeptBy p.now { s with tx := { s.tx with ack := s.tx.ack.set s.seq.blk.toNat ack } } :=
    h.recordTx (by simpa) s.tx.postSuccess
  split_ifs with due nak last
  · exact KeptBy.attemptEnd (recorded.move {} .idle) (by simp) pending (by simp)
  · exact KeptBy.attemptEnd (recorded.move {} .gap) (by simp) pending (by simp)
  · have more : s.seq.blk.toNat + 1 < s.tx.len.toNat := by
      simp only [lastBlock, beq_iff_eq] at last; omega
    exact recorded.move {} .txAck
  · exact h

omit block in
theorem handleTxAckEnd_keeps (more : s.seq.blk.toNat + 1 < s.tx.len.toNat) : KeptBy p.now (handleTxAckEnd p s) := by
  obtain ⟨-, -, small⟩ := attemptParamsOk_of_wf h.params
  have fits := h.link.len
  have next : (s.seq.blk + 1).toNat = s.seq.blk.toNat + 1 := toNat_add_one (by omega)
  unfold handleTxAckEnd
  split_ifs
  · exact h.move { blk := .inr (by simp only [startBit_seq, next]; omega) }
      (.txBit (block := by simpa only [startBit_seq, startBit_tx, next] using more))
  · exact h

end Sending

section Receiving

variable (role : s.seq.role = .rx)

include role

theorem handleAwaitLow_keeps (st : s.seq.st = .awaitStart) (released : s.line.driveLow = false) :
    KeptBy p.now (handleAwaitLow p s) := by
  unfold handleAwaitLow
  split_ifs
  · exact h.move {} .awaitStart
  · exact h.rxError
  · exact h.rxError
  · exact h

theorem handleAwaitTotal_keeps (released : s.line.driveLow = false) : KeptBy p.now (handleAwaitTotal p s) := by
  obtain ⟨-, frame, -⟩ := attemptParamsOk_of_wf h.params
  unfold handleAwaitTotal
  split_ifs
  · exact h.move { blk := .inr (by simpa) } .rxBit
  · exact h.rxError
  · exact h.rxError
  · exact h

theorem handleRxBitLow_keeps (st : s.seq.st = .bitPeriod) (ph : s.seq.ph = .driveLowEdge)
    (released : s.line.driveLow = false) (bit : s.seq.bitIdx.toNat ≤ 8) : KeptBy p.now (handleRxBitLow p s) := by
  unfold handleRxBitLow
  split_ifs
  · split
    · exact h.rxError
    · next v _ =>
      have recorded : KeptBy p.now (recordRxBit v s) := h.move (recordRxBit_moves p.now v s) .rxBit
      exact recorded.move {} .rxBit
  · exact h.rxError
  · exact h

theorem handleRxBitEnd_keeps (st : s.seq.st = .bitPeriod) (released : s.line.driveLow = false)
    (bit : s.seq.bitIdx.toNat ≤ 8) : KeptBy p.now (handleRxBitEnd p s) := by
  have next : (s.seq.bitIdx + 1).toNat = s.seq.bitIdx.toNat + 1 := toNat_add_one (by omega)
  have range : (s.seq.bitIdx + 1).toNat ≤ 9 := by omega
  unfold handleRxBitEnd
  dsimp only
  split_ifs with fall inside last mine
  · exact h.move { bitIdx := .inr (by simpa only [setDrive_seq]) } .rxAck
  · exact h.move { bitIdx := .inr range } .rxAck
  · exact h.move { bitIdx := .inr range } (.rxBit (bit := by simp only; bv_omega))
  · exact h.rxError
  · exact h.rxError
  · exact h

theorem recordRxAck_keeps (ack : Bool) (st : s.seq.st = .ackWindow) (released : s.line.driveLow = false) :
    KeptBy p.now (recordRxAck p.now ack s) := by
  have recorded : KeptBy p.now { s with rx := { s.rx with
      ack := s.rx.ack.set s.seq.blk.toNat ack, len := s.seq.blk.zeroExtend 5 + 1 } } := by
    have blk := h.ranges.blk
    exact h.move { rxLen := .inr (by simp; bv_omega) } (h.stands.of_eq rfl rfl rfl rfl (.inr ⟨rfl, rfl⟩))
  unfold recordRxAck
  dsimp only
  split_ifs with last mine nak full
  · exact recorded.move {} .gap
  · exact recorded.move {} .gap
  · exact recorded.move {} .idle
  · exact recorded.rxError
  · exact recorded.move {} (.rxAck (more := fun _ => by simpa using full))

theorem handleRxAckLow_keeps (st : s.seq.st = .ackWindow) (ph : s.seq.ph = .driveLowEdge)
    (heard : p.rise = true → s.line.driveLow = false) : KeptBy p.now (handleRxAckLow p s) := by
  unfold handleRxAckLow
  split_ifs with release rise
  · exact h.move {} .rxAck
  · split
    · exact h.rxError
    · exact recordRxAck_keeps h role _ st (heard rise)
  · exact h.rxError
  · exact h

theorem handleRxAckEnd_keeps (released : s.line.driveLow = false) (more : s.seq.blk.toNat + 1 < s.params.maxFrame) :
    KeptBy p.now (handleRxAckEnd p s) := by
  obtain ⟨-, -, small⟩ := attemptParamsOk_of_wf h.params
  have next : (s.seq.blk + 1).toNat = s.seq.blk.toNat + 1 := toNat_add_one (by omega)
  unfold handleRxAckEnd
  split_ifs
  · exact h.move { blk := .inr (by simpa only [next]) } .rxBit
  · exact h.rxError
  · exact h.rxError
  · exact h

end Receiving

end Handlers

/-! ### One TICK -/

/-- The handler R172 selects keeps the invariant, if the core releases the line while it hears a rise (R156). -/
theorem runHandler_keeps {p : Sample} {s : State} (h : KeptBy p.now s)
    (heard : p.rise = true → s.line.driveLow = false) :
    KeptBy p.now (runHandler (selectHandler s.seq.st s.seq.role s.seq.ph) p s) := by
  cases h.stands with
  | idle st role released => rw [st]; exact handleIdle_keeps h st role released
  | gap st role released => rw [st]; exact handleGap_keeps h released
  | awaitStart st role ph released =>
    rcases ph with ph | ph <;> rw [st, role, ph]
    · exact handleAwaitLow_keeps h role st released
    · exact handleAwaitTotal_keeps h role released
  | sendStart st role driving pending block first =>
    rw [st, role]
    cases ph : s.seq.ph with
    | driveLowEdge | sampleRelease => exact handleSendStart_keeps h role pending block st driving first
    | fullBitWait => exact handleSendStartEnd_keeps h role pending block first
    | code3 => exact absurd ph h.ranges.ph
  | txBit st role driving pending block bit =>
    rw [st, role]
    cases ph : s.seq.ph with
    | driveLowEdge => exact handleTxBitLow_keeps h role pending block st bit
    | sampleRelease => exact handleTxBitSample_keeps h role pending block st (by simpa [ph] using driving) bit
    | fullBitWait => exact handleTxBitEnd_keeps h role pending block bit
    | code3 => exact absurd ph h.ranges.ph
  | txAck st role driving pending block more =>
    rw [st, role]
    cases ph : s.seq.ph with
    | driveLowEdge => exact handleTxAckLow_keeps h role pending block st
    | sampleRelease => exact handleTxAckSample_keeps h role pending block st (by simpa [ph] using driving)
    | fullBitWait => exact handleTxAckEnd_keeps h role pending (more ph)
    | code3 => exact absurd ph h.ranges.ph
  | rxBit st role ph released bit =>
    rcases ph with ph | ph <;> rw [st, role, ph]
    · exact handleRxBitLow_keeps h role st ph released bit
    · exact handleRxBitEnd_keeps h role st released bit
  | rxAck st role ph driving more =>
    rcases ph with ph | ph <;> rw [st, role, ph]
    · exact handleRxAckLow_keeps h role st ph heard
    · exact handleRxAckEnd_keeps h role (by simpa [ph] using driving) (more ph)

/-- Sampling stamps `t_free` with the TICK's time at most (R155). -/
theorem KeptBy.stampFree {p : Sample} {s : State} (h : KeptBy p.now s) : KeptBy p.now (stampFree p s) := by
  unfold Machine.stampFree
  split
  · exact h.move {} (h.stands.of_eq rfl rfl rfl rfl (.inr ⟨rfl, rfl⟩))
  · exact h

/-- The epilogue ends the TICK at its own time, so that what holds by `now` is the run invariant again (R170). -/
theorem KeptBy.epilogue {p : Sample} {s : State} (h : KeptBy p.now s) : RunInvariant (epilogue p s) :=
  runInvariant_iff.mpr <| h.move {} (h.stands.of_eq rfl rfl rfl rfl (.inr ⟨rfl, rfl⟩))

/-- ApplyInit puts the engine in IDLE and counts the waiting time from now, or leaves it (R342). -/
theorem applyInit_seq_tAttempt (now : Nat) (s : State) :
    (applyInit now s).seq = { s.seq with st := .idle, role := .none } ∧
    ((applyInit now s).time.tAttempt = s.time.tAttempt ∨ (applyInit now s).time.tAttempt = now) := by
  rcases applyInit_cases now s with ⟨-, h⟩ | ⟨c, rest, -, h⟩ <;> rw [h]
  · exact ⟨rfl, .inl rfl⟩
  · exact ⟨rfl, .inr rfl⟩

/-- An INIT is due only where the line is released (R170; R44, 4). -/
theorem Stands.released_of_initDue {s : State} (h : Stands s) (due : initDue s = true) : s.line.driveLow = false := by
  cases h with
  | idle _ _ released | gap _ _ released => exact released
  | awaitStart st | sendStart st | txBit st | txAck st | rxBit st | rxAck st =>
    rw [initDue_of_busy (by simp [st]) (by simp [st])] at due; cases due

/-- An INIT that is due is applied within the invariant (R342). -/
theorem KeptBy.applyInit {now : Nat} {s : State} (h : KeptBy now s) (due : initDue s = true) :
    KeptBy now (applyInit now s) := by
  obtain ⟨params, line, rx, -, -, tFall, tFree, -⟩ := applyInit_frame now s
  obtain ⟨seq, tAttempt⟩ := applyInit_seq_tAttempt now s
  have released := h.stands.released_of_initDue due
  exact
    { params := params ▸ h.params
      link := h.link.toLinkBase.applyInit h.params now
      stands := .idle
      ranges := by
        obtain ⟨ph, bitIdx, blk, rxLen⟩ := h.ranges
        constructor <;> simpa only [seq, rx, params]
      buffers := applyInit_buffersOk h.buffers h.params now
      stamps :=
        { tFall := tFall.trans_le h.stamps.tFall
          tFree := tFree.trans_le h.stamps.tFree
          tAttempt := tAttempt.elim (·.trans_le h.stamps.tAttempt) Eq.le
          tDrive := line ▸ h.stamps.tDrive } }

/-- A rise is heard only on a line that reads HIGH (R154). -/
theorem lineIn_of_rise {now : Nat} {lineIn : Bool} {s : State} (h : (sampleOf now lineIn s).rise = true) :
    lineIn = true := by
  simp only [sampleOf, Bool.and_eq_true] at h
  exact h.2

/-- The invariant holds by every later time. -/
theorem KeptBy.later {now now' : Nat} {s : State} (h : KeptBy now s) (le : now ≤ now') : KeptBy now' s :=
  { h with
    stamps := ⟨h.stamps.tFall.trans le, h.stamps.tFree.trans le, h.stamps.tAttempt.trans le, h.stamps.tDrive.trans le⟩ }

/-- Serving a TICK whose level obeys the wired-AND keeps the invariant. -/
theorem KeptBy.serveTick {now : Nat} {lineIn : Bool} {s : State} (h : KeptBy now s)
    (wiredAnd : lineIn = true → s.line.driveLow = false) : RunInvariant (serveTick now lineIn s) := by
  have sampled : KeptBy now (Machine.stampFree (sampleOf now lineIn s) s) :=
    KeptBy.stampFree (p := sampleOf now lineIn s) h
  have served := runHandler_keeps (p := sampleOf now lineIn s) sampled
    (fun rise => by simpa using wiredAnd (lineIn_of_rise rise))
  rw [stampFree_seq] at served
  rw [serveTick_eq]
  exact served.epilogue

/-- A TICK whose level obeys the wired-AND keeps the run invariant (`40_line_interface.md` R156). -/
theorem RunInvariant.tickAt {now : Nat} {lineIn : Bool} {s : State} (h : RunInvariant s) (forward : s.time.tLast ≤ now)
    (wiredAnd : lineIn = true → s.line.driveLow = false) : RunInvariant (tickAt now lineIn s) := by
  have kept : KeptBy now s := (runInvariant_iff.mp h).later forward
  obtain ⟨inTable, -⟩ := h.table
  rw [tickAt_served (stuck_eq_false.mpr ⟨legal_of_invariants h.toInvariants h.codes, inTable⟩)]
  split_ifs with due
  · obtain ⟨-, line, -⟩ := applyInit_frame now s
    exact (kept.applyInit due).serveTick (line ▸ wiredAnd)
  · exact kept.serveTick wiredAnd

/-! ### Every step -/

/-- The ports and the latch have no part in the run invariant. -/
theorem RunInvariant.withPorts {s : State} (h : RunInvariant s) (latch : PInitRegs) (input : List Input)
    (events : List Event) (response : Option Response) :
    RunInvariant { s with pinit := latch, input := input, events := events, response := response } :=
  { h with }

/-- A wire row is a run of TICKs under the wired-AND it computes itself (log entry 6). -/
theorem RunInvariant.onWire {s : State} (h : RunInvariant s) (sch : Sched) (pulses : List Pulse) :
    RunInvariant (onWire sch pulses s) :=
  runTicks_induction (P := RunInvariant)
    (fun _ hu => hu.tickAt (Nat.le_add_right ..) (by simp)) _ _ (h.withPorts ..)

/-- RESET makes the registers anew from the parameters (`70_reset_and_hazards.md` R420). -/
theorem runInvariant_resetRegs {s : State} (wf : s.params.Wf) (now0 : Nat) : RunInvariant (resetRegs now0 s) := by
  obtain ⟨-, frame, -⟩ := attemptParamsOk_of_wf wf
  have base : LinkBase (resetRegs now0 s) :=
    { claimed := by rintro ⟨⟩, address := fun _ => rfl, candIdx := Nat.zero_le _, len := Nat.zero_le _,
      attempt := Nat.zero_le _, sft := .inr ⟨le_rfl, Nat.le_add_right ..⟩, outcome := by simp }
  exact runInvariant_iff.mpr
    { params := wf
      link := base.linkOk rfl
      stands := .idle
      ranges := { ph := by simp, bitIdx := Nat.zero_le _, blk := frame, rxLen := Nat.zero_le _ }
      buffers := by simp [BuffersOk]
      stamps := ⟨le_rfl, le_rfl, le_rfl, le_rfl⟩ }

/-- Settles O10: the registers RESET writes meet the invariant for every parameter record of R9, and `State.reset` is
RESET(0) with the default parameters. -/
theorem resetEstablishesInvariant : Obligations.ResetEstablishesInvariant :=
  ⟨runInvariant_resetRegs (s := State.reset) (by decide) 0,
    fun now0 s wf => ⟨_, rfl, runInvariant_resetRegs (s := clearPorts s) wf now0⟩⟩

/-- A claimed core with nothing pending arms a frame without disturbing what it receives
(`44_host_interface.md` R343). -/
theorem RunInvariant.armHost {s : State} (inv : RunInvariant s) (dest : LogAddr) {payload : List Byte}
    (alloc : s.session.alloc = .claimed) (free : s.tx.pending = false)
    (fits : payload.length ≤ s.params.maxFrame - 1) : RunInvariant (armHost dest payload s) := by
  have h := runInvariant_iff.mp inv
  obtain ⟨-, frame, -⟩ := attemptParamsOk_of_wf h.params
  obtain ⟨rxBuf, rxAck, txBuf, -⟩ := h.buffers
  have silent : s.seq.role ≠ .tx ∨ s.seq.st = .interframeGap := by
    by_contra! sending
    obtain ⟨role, st⟩ := sending
    simpa [free] using h.stands.sending role st
  have stored : (headerByte s.session.la dest :: payload).length ≤ s.tx.buf.length := by
    rw [txBuf, List.length_cons]; omega
  exact runInvariant_iff.mpr
    { params := h.params
      link := h.link.toLinkBase.armHost h.params dest alloc fits
      stands := h.stands.of_eq rfl rfl rfl rfl (.inl silent)
      ranges := { h.ranges with }
      buffers := ⟨rxBuf, rxAck, (length_storeFrame stored).trans txBuf, length_clearAcks _⟩
      stamps := { h.stamps with tAttempt := le_rfl } }

/-- An instruction that completes, in an environment that does its duty, keeps the run invariant. -/
theorem RunInvariant.exec {i : Instr} {s t : State} (inv : RunInvariant s) (env : EnvOk s i)
    (h : exec i s = .next t) : RunInvariant t := by
  have cleared : RunInvariant (clearPorts s) := inv.withPorts ..
  cases completes_of_exec h with
  | latched => exact inv.withPorts ..
  | notReady | busy | tooLong | gotLa | gotStatus | levelRead => exact cleared.withPorts ..
  | armed dest payload alloc free fits =>
    have armed : RunInvariant (Machine.armHost dest payload (clearPorts s)) :=
      cleared.armHost dest alloc (by simpa using fun busy => free (.inl busy)) fits
    exact armed.withPorts ..
  | reset now0 => exact runInvariant_resetRegs cleared.params now0
  | ticked now lineIn admitted => exact cleared.tickAt admitted.le env
  | drove v => exact env.elim
  | wire i sch pulses row => exact inv.onWire sch pulses

/-- A step takes nothing and clears the ports, or completes the instruction its first transfer spells. -/
theorem step_eq_next {s t : State} (h : step s = .next t) :
    t = clearPorts s ∨ ∃ inp rest i, s.input = inp :: rest ∧ decode inp = .ok i ∧
      exec i { s with input := rest } = .next t := by
  unfold step at h
  split at h
  · cases h; exact .inl rfl
  · next inp rest input =>
    split at h
    · next i decoded => exact .inr ⟨inp, rest, i, input, decoded, h⟩
    · cases h

/-- Settles O42: `Stands` lists the places of the sequencer, every handler moves between them or ends an attempt, and
every other instruction leaves the sequencer or makes the registers anew. -/
theorem stepKeepsInvariant : Obligations.StepKeepsInvariant := by
  intro s t inv env h
  rcases step_eq_next h with rfl | ⟨inp, rest, i, input, decoded, h⟩
  · exact inv.withPorts ..
  · have duty : EnvOk s i := env inp (by simp [input]) i decoded
    exact (inv.withPorts s.pinit rest s.events s.response).exec duty h

/-! ### The configuration -/

/-- From `s` to `t` the latch and the configuration stay, or a latched INIT has been applied (R33, R342). -/
def LatchKeptOrApplied (s t : State) : Prop :=
  (t.pinit = s.pinit ∧ t.cfg = s.cfg) ∨ (s.pinit.valid = true ∧ t.pinit.valid = false)

theorem LatchKeptOrApplied.trans {s t u : State} (h : LatchKeptOrApplied s t) (h' : LatchKeptOrApplied t u) :
    LatchKeptOrApplied s u := by
  rcases h with ⟨latch, cfg⟩ | ⟨was, gone⟩ <;> rcases h' with ⟨latch', cfg'⟩ | ⟨was', gone'⟩
  · exact .inl ⟨latch'.trans latch, cfg'.trans cfg⟩
  · exact .inr ⟨latch ▸ was', gone'⟩
  · exact .inr ⟨was, latch' ▸ gone⟩
  · exact .inr ⟨was, gone'⟩

/-- ApplyInit empties the latch (R342). -/
theorem applyInit_pinit_valid (now : Nat) (s : State) : (applyInit now s).pinit.valid = false := by
  rcases applyInit_cases now s with ⟨-, h⟩ | ⟨c, rest, -, h⟩ <;> rw [h] <;> rfl

/-- An INIT that is due is latched. -/
theorem valid_of_initDue {s : State} (h : initDue s = true) : s.pinit.valid = true := by
  simp only [initDue, Bool.and_eq_true] at h
  obtain ⟨⟨valid, -⟩, -⟩ := h
  exact valid

/-- After its ApplyInit a TICK writes neither the latch nor the configuration. -/
theorem serveTick_pinit_cfg (now : Nat) (lineIn : Bool) (s : State) :
    (serveTick now lineIn s).pinit = s.pinit ∧ (serveTick now lineIn s).cfg = s.cfg := by
  have frame := runHandler_frame (selectHandler s.seq.st s.seq.role s.seq.ph) (sampleOf now lineIn s)
    (stampFree (sampleOf now lineIn s) s)
  rw [serveTick_eq, epilogue_pinit, epilogue_cfg, frame.pinit, frame.cfg, stampFree_pinit, stampFree_cfg]
  exact ⟨rfl, rfl⟩

/-- Only its ApplyInit lets a TICK write the configuration, and that empties the latch. -/
theorem tickAt_latch (now : Nat) (lineIn : Bool) (s : State) : LatchKeptOrApplied s (tickAt now lineIn s) := by
  cases halted : stuck s with
  | true => exact .inl (by simp [tickAt_stuck halted])
  | false =>
    rw [tickAt_served halted]
    split_ifs with due
    · rw [LatchKeptOrApplied, (serveTick_pinit_cfg ..).1]
      exact .inr ⟨valid_of_initDue due, applyInit_pinit_valid now s⟩
    · exact .inl (serveTick_pinit_cfg now lineIn s)

/-- A wire row is a run of TICKs. -/
theorem onWire_latch (sch : Sched) (pulses : List Pulse) (s : State) : LatchKeptOrApplied s (onWire sch pulses s) :=
  runTicks_induction (P := LatchKeptOrApplied s) (fun u hu => hu.trans (tickAt_latch _ _ u)) _ _ (.inl ⟨rfl, rfl⟩)

/-- Settles O46: a TICK, and so a wire row, writes the configuration only when it applies the latched INIT, and no other
row but RESET writes it. -/
theorem configurationOnlyFromInit : Obligations.ConfigurationOnlyFromInit := by
  intro i s t notReset h latched
  have kept : LatchKeptOrApplied s t → t.cfg = s.cfg := by
    rintro (⟨-, cfg⟩ | ⟨was, gone⟩)
    · exact cfg
    · rw [latched was] at gone; cases gone
  cases completes_of_exec h with
  | reset now0 => exact absurd rfl (notReset now0)
  | ticked now lineIn => exact kept (tickAt_latch now lineIn (clearPorts s))
  | wire i sch pulses => exact kept (onWire_latch sch pulses s)
  | drove v => exact setDrive_cfg ..
  | latched | notReady | busy | tooLong | armed | gotLa | gotStatus | levelRead => rfl

end Sys2Proof.Machine
end

section
/-! SUPPORT. The parameters are fixed for a run (`20_memory.md` R94): what a TICK, a wire row and every other row of the
opcode table leave of them. -/

namespace Sys2Proof.Machine

/-- Neither the sampling, nor the handler R172 selects, nor the epilogue writes a parameter. -/
@[simp] theorem serveTick_params (now : Nat) (lineIn : Bool) (s : State) :
    (serveTick now lineIn s).params = s.params := by
  have frame := runHandler_frame (selectHandler s.seq.st s.seq.role s.seq.ph) (sampleOf now lineIn s)
    (stampFree (sampleOf now lineIn s) s)
  rw [serveTick_eq, epilogue_params, frame.params, stampFree_params]

/-- A TICK writes no parameter, whether it halts (R193), applies a latched INIT (R342) or only serves its handler. -/
@[simp] theorem tickAt_params (now : Nat) (lineIn : Bool) (s : State) :
    (tickAt now lineIn s).params = s.params := by
  cases halted : stuck s with
  | true => simp [tickAt_stuck halted]
  | false =>
    rw [tickAt_served halted, serveTick_params]
    split_ifs with due
    · exact (applyInit_frame now s).1
    · rfl

/-- A wire row is a run of TICKs. -/
@[simp] theorem onWire_params (sch : Sched) (pulses : List Pulse) (s : State) :
    (onWire sch pulses s).params = s.params :=
  runTicks_induction (P := fun u => u.params = s.params) (fun u hu => (tickAt_params _ _ u).trans hu) _ _ rfl

/-- An instruction that completes, RESET among them, writes no parameter. -/
theorem exec_params {i : Instr} {s t : State} (h : exec i s = .next t) : t.params = s.params := by
  cases completes_of_exec h with
  | ticked now lineIn => exact tickAt_params now lineIn (clearPorts s)
  | wire i sch pulses => exact onWire_params sch pulses s
  | drove v => exact setDrive_params ..
  | reset now0 => exact resetRegs_params now0 (clearPorts s)
  | latched | notReady | busy | tooLong | armed | gotLa | gotStatus | levelRead => rfl

/-- Settles O43: a step clears the ports or takes a transfer and completes its instruction, and neither writes a
parameter. -/
theorem parametersNeverWritten : Obligations.ParametersNeverWritten := by
  intro s t h
  rcases step_eq_next h with rfl | ⟨_, rest, _, -, -, completes⟩
  · exact clearPorts_params s
  · exact exec_params (s := { s with input := rest }) completes

end Sys2Proof.Machine
end

section
/-! SUPPORT. Decoding undoes encoding (log entry 4): each reader of the decoder gives back what the encoder wrote and the
bytes after it, and from that the round trip of every row; then that the code in bits 3..0 of a command's first byte alone
tells the command (`30_encoding.md` R120). -/

namespace Sys2Proof

/-! ### Naturals -/

/-- A byte with bit 7 clear is a natural's last. -/
theorem takeNat_cons_last {b : Byte} (last : b.toNat < 128) (bs : List Byte) :
    takeNat (b :: bs) = some (b.toNat, bs) := by
  rw [takeNat, if_pos last]

/-- A byte with bit 7 set adds its seven low bits below the natural that follows. -/
theorem takeNat_cons_more {b : Byte} {bs r : List Byte} {n : Nat} (more : 128 ≤ b.toNat)
    (h : takeNat bs = some (n, r)) : takeNat (b :: bs) = some (b.toNat - 128 + 128 * n, r) := by
  rw [takeNat, if_neg (Nat.not_lt.mpr more), h]

/-- With fuel for every base-128 digit, the bytes of a natural are read back. -/
theorem takeNat_natBytesFuel (rest : List Byte) :
    ∀ (fuel n : Nat), n < 128 ^ (fuel + 1) → takeNat (natBytesFuel fuel n ++ rest) = some (n, rest)
  | 0, n, bound => by
    have digit : (BitVec.ofNat 8 (n % 128)).toNat = n := by rw [BitVec.toNat_ofNat]; omega
    rw [natBytesFuel, List.singleton_append, takeNat_cons_last (by omega), digit]
  | fuel + 1, n, bound => by
    rw [natBytesFuel]
    split_ifs with small
    · have digit : (BitVec.ofNat 8 n).toNat = n := by rw [BitVec.toNat_ofNat]; omega
      rw [List.singleton_append, takeNat_cons_last (by omega), digit]
    · have digit : (BitVec.ofNat 8 (128 + n % 128)).toNat = 128 + n % 128 := by rw [BitVec.toNat_ofNat]; omega
      have higher := takeNat_natBytesFuel rest fuel (n / 128) (Nat.div_lt_of_lt_mul (by rwa [← pow_succ']))
      rw [List.cons_append, takeNat_cons_more (by omega) higher, digit]
      congr 2
      omega

/-- The bytes of a natural are read back, whatever follows them. -/
theorem takeNat_natBytes (n : Nat) (rest : List Byte) : takeNat (natBytes n ++ rest) = some (n, rest) := by
  refine takeNat_natBytesFuel rest n.log2 n (Nat.lt_log2_self.trans_le ?_)
  exact Nat.pow_le_pow_left (by decide) _

/-! ### What each reader gives back -/

@[simp] theorem readNat_natBytes (n : Nat) (rest : List Byte) (k : Nat → List Byte → Decoded) :
    readNat (natBytes n ++ rest) k = k n rest :=
  readNat_some (takeNat_natBytes n rest) k

@[simp] theorem readSched_schedBytes (sch : Sched) (rest : List Byte) (k : Sched → List Byte → Decoded) :
    readSched (schedBytes sch ++ rest) k = k sch rest := by
  simp [readSched, schedBytes]

@[simp] theorem readPayload_payload (payload rest : List Byte) (k : List Byte → List Byte → Decoded) :
    readPayload (natBytes payload.length ++ (payload ++ rest)) k = k payload rest := by
  simp [readPayload]

@[simp] theorem readBlocks_blockBytes (blocks : List (Byte × Bool)) (rest : List Byte)
    (k : List (Byte × Bool) → List Byte → Decoded) :
    readBlocks (natBytes blocks.length ++ (blockBytes blocks ++ rest)) k = k blocks rest := by
  simp [readBlocks, takeBlocks_blockBytes]

/-- Decoding goes on where the unused flag bits are 0. -/
theorem unusedZero_nibbles {hi unused : BitVec 4} (zero : hi &&& unused = 0) (lo : BitVec 4) (d : Decoded) :
    unusedZero (nibbles hi lo) unused d = d := by
  rw [unusedZero, highNibble_nibbles, if_pos zero]

@[simp] theorem unusedZero_noFlags (lo unused : BitVec 4) (d : Decoded) :
    unusedZero (nibbles 0#4 lo) unused d = d :=
  unusedZero_nibbles BitVec.zero_and lo d

@[simp] theorem unusedZero_oneFlag (x : Bool) (lo : BitVec 4) (d : Decoded) :
    unusedZero (nibbles (flagNibble x false) lo) 14#4 d = d :=
  unusedZero_nibbles (flagNibble_and_fourteen x) lo d

@[simp] theorem unusedZero_twoFlags (x y : Bool) (lo : BitVec 4) (d : Decoded) :
    unusedZero (nibbles (flagNibble x y) lo) 12#4 d = d :=
  unusedZero_nibbles (flagNibble_and_twelve x y) lo d

/-- The two bytes INIT carries `phys` in (log entry 4) make it up again. -/
@[simp] theorem physBytes_append (phys : BitVec 16) : phys.extractLsb' 8 8 ++ phys.extractLsb' 0 8 = phys :=
  (BitVec.extractLsb'_append_extractLsb'_eq_extractLsb' rfl).trans BitVec.extractLsb'_eq_self

/-! ### The command port -/

/-- A reserved code is any but the four commands' (R120). -/
theorem reservedCode_iff {code : BitVec 4} :
    reservedCode code = true ↔ code ≠ 1 ∧ code ≠ 2 ∧ code ≠ 3 ∧ code ≠ 4 := by
  revert code; decide

/-- A reserved code spells the reserved command. -/
theorem decodeCommand_reserved {h : Byte} (reserved : reservedCode (lowNibble h) = true) (bs : List Byte) :
    decodeCommand (h :: bs) = finish (.reservedCmd (lowNibble h)) bs := by
  obtain ⟨notInit, notTransmit, notGetLa, notGetStatus⟩ := reservedCode_iff.mp reserved
  rw [decodeCommand, readByte_cons]
  split
  · next code => exact absurd (BitVec.eq_of_toNat_eq code) notInit
  · next code => exact absurd (BitVec.eq_of_toNat_eq code) notTransmit
  · next code => exact absurd (BitVec.eq_of_toNat_eq code) notGetLa
  · next code => exact absurd (BitVec.eq_of_toNat_eq code) notGetStatus
  · rfl

/-- What a transfer on the command port spells: its code, and the command with that code. -/
inductive SpellsCommand (code : BitVec 4) : Instr → Prop where
  | init (is : code = 1) (phys : BitVec 16) (devType : BitVec 8) (prom : Bool) :
      SpellsCommand code (.init phys devType prom)
  | transmit (is : code = 2) (dest : LogAddr) (payload : List Byte) : SpellsCommand code (.transmit dest payload)
  | getLa (is : code = 3) : SpellsCommand code .getLa
  | getStatus (is : code = 4) : SpellsCommand code .getStatus
  | reserved (is : reservedCode code = true) : SpellsCommand code (.reservedCmd code)

/-- The code of the first byte tells which command a transfer spells (R120). -/
theorem spellsCommand_of_decodeCommand {h : Byte} {bs : List Byte} {i : Instr}
    (decoded : decodeCommand (h :: bs) = .ok i) : SpellsCommand (lowNibble h) i := by
  by_cases reserved : reservedCode (lowNibble h) = true
  · rw [decodeCommand_reserved reserved] at decoded
    obtain ⟨-, rfl⟩ := finish_eq_ok.mp decoded
    exact .reserved reserved
  · rw [decodeCommand, readByte_cons] at decoded
    split at decoded
    · next code =>
      obtain ⟨devType, _, -, decoded⟩ := readByte_eq_ok decoded
      obtain ⟨p0, _, -, decoded⟩ := readByte_eq_ok decoded
      obtain ⟨p1, _, -, decoded⟩ := readByte_eq_ok decoded
      obtain ⟨-, rfl⟩ := finish_eq_ok.mp decoded
      exact .init (BitVec.eq_of_toNat_eq code) ..
    · next code =>
      obtain ⟨_, _, -, -, decoded⟩ := readPayload_eq_ok decoded
      obtain ⟨-, rfl⟩ := finish_eq_ok.mp decoded
      exact .transmit (BitVec.eq_of_toNat_eq code) ..
    · next code =>
      obtain ⟨-, rfl⟩ := finish_eq_ok.mp decoded
      exact .getLa (BitVec.eq_of_toNat_eq code)
    · next code =>
      obtain ⟨-, rfl⟩ := finish_eq_ok.mp decoded
      exact .getStatus (BitVec.eq_of_toNat_eq code)
    · next code1 code2 code3 code4 =>
      refine absurd (reservedCode_iff.mpr ⟨?_, ?_, ?_, ?_⟩) reserved <;> bv_omega

/-- Settles O3: each command the port can spell has the code it is spelled with, and only the reserved one a reserved
code. -/
theorem commandCodeDecides : Obligations.CommandCodeDecides := by
  intro h bs i decoded
  have spells := spellsCommand_of_decodeCommand decoded
  rw [reservedCode_iff]
  generalize lowNibble h = code at spells ⊢
  cases spells with
  | init is | transmit is | getLa is | getStatus is => subst is; exact ⟨rfl, by simp⟩
  | reserved is => exact ⟨rfl, by simpa using reservedCode_iff.mp is⟩

/-- Settles O4: the decoder computes on closed words. -/
theorem tableWordsDecode : Obligations.TableWordsDecode := by
  unfold Obligations.TableWordsDecode
  decide

/-! ### The round trip -/

/-- Settles O1: on each row's port its code selects the readers of its operands in the order the encoder wrote them, and
the padding ends the instruction. -/
theorem decodeEncodeRoundTrip : Obligations.DecodeEncodeRoundTrip := by
  intro c i n wf
  cases i with
  | reservedCmd code =>
    have reserved : reservedCode (lowNibble (nibbles 0 code)) = true := by simpa [Instr.wf] using wf
    change decodeCommand (nibbles 0 code :: List.replicate n 0#8) = _
    rw [decodeCommand_reserved reserved, lowNibble_nibbles, finish_zeros]
  | init | transmit | getLa | getStatus => simp [encode, decode, decodeCommand]
  | reset | tick => simp [encode, decode, decodeStep]
  | read | drive => simp [encode, decode, decodeLine]
  | start | data0 | data1 | block | eom | ackSlot | header | frame | poll => simp [encode, decode, decodeWire]

end Sys2Proof
end

section
/-! SUPPORT. The commands' encodings at work (`30_encoding.md` R120, R123): a reserved code is refused at the port, and an
accepted TRANSMIT leaves its frame in `tx_buf`, entry by entry. -/

namespace Sys2Proof.Machine

/-! ### Reserved codes -/

/-- A step runs what the next transfer spells. -/
theorem step_of_decode {s : State} {inp : Input} {rest : List Input} {i : Instr} (input : s.input = inp :: rest)
    (decoded : decode inp = .ok i) : step s = exec i { s with input := rest } := by
  unfold step
  rw [input]
  dsimp only
  rw [decoded]

/-- Settles O16: a reserved code's transfer spells RESERVED_CMD, which is refused. -/
theorem reservedCommandRefused : Obligations.ReservedCommandRefused := by
  refine ⟨fun code s => rfl, fun h s rest code input => ?_⟩
  have reserved : reservedCode (lowNibble h) = true := by simpa [reservedCode] using code
  have decoded : decode ⟨.command, [h]⟩ = .ok (.reservedCmd (lowNibble h)) := decodeCommand_reserved reserved []
  exact step_of_decode input decoded

/-! ### The frame of an accepted TRANSMIT -/

/-- The header is `16 * src + dst` as a number (`30_encoding.md` R113, R123). -/
theorem toNat_headerByte (src dst : LogAddr) : (headerByte src dst).toNat = 16 * src.toNat + dst.toNat := by
  revert src dst; decide

@[simp] theorem headerSrc_headerByte (src dst : LogAddr) : headerSrc (headerByte src dst) = src :=
  highNibble_nibbles src dst

@[simp] theorem headerDst_headerByte (src dst : LogAddr) : headerDst (headerByte src dst) = dst :=
  lowNibble_nibbles src dst

/-- A stored frame's bytes are the buffer's first entries. -/
theorem getElem?_storeFrame_of_lt {frame : List Byte} (buf : List Byte) {i : Nat} (inside : i < frame.length) :
    (storeFrame frame buf)[i]? = frame[i]? :=
  List.getElem?_append_left inside

/-- The entries after a stored frame are not written (R123). -/
theorem getElem?_storeFrame_of_le {frame : List Byte} (buf : List Byte) {i : Nat} (after : frame.length ≤ i) :
    (storeFrame frame buf)[i]? = buf[i]? := by
  rw [storeFrame, List.getElem?_append_right after, List.getElem?_drop, Nat.add_sub_cancel' after]

/-- A claimed core with nothing pending and nothing latched arms a frame that fits (R343). -/
theorem execTransmit_accepted {dest : LogAddr} {payload : List Byte} {s : State} (alloc : s.session.alloc = .claimed)
    (free : s.tx.pending = false) (latch : s.pinit.valid = false) (fits : payload.length ≤ s.params.maxFrame - 1) :
    execTransmit dest payload s = .next (respond .accepted (armHost dest payload (clearPorts s))) := by
  simp [execTransmit, alloc, free, latch, Nat.not_lt.mpr fits]

/-- `tx_len` counts the header and the payload wherever its width holds the count. -/
theorem armHost_len {payload : List Byte} (dest : LogAddr) (s : State) (short : payload.length + 1 < 32) :
    (armHost dest payload s).tx.len.toNat = payload.length + 1 := by
  rw [armHost, BitVec.toNat_ofNat]
  exact Nat.mod_eq_of_lt short

/-- What an event would carry of the armed frame is the frame (`20_memory.md` R83). -/
theorem txBytes_armHost {payload : List Byte} (dest : LogAddr) (s : State) (short : payload.length + 1 < 32) :
    txBytes (armHost dest payload s).tx = headerByte s.session.la dest :: payload := by
  rw [txBytes, armHost_len dest s short]
  exact List.take_left (l₁ := headerByte s.session.la dest :: payload)

/-- Settles O13: the frame stored in `tx_buf` is the header and then the payload, and R9's bound on `MAX_FRAME` keeps
its length inside `tx_len`. -/
theorem transmitAssemblesFrame : Obligations.TransmitAssemblesFrame := by
  intro dest payload s inv alloc free latch fits
  obtain ⟨-, -, maxFrame⟩ := attemptParamsOk_of_wf inv.params
  have short : payload.length + 1 < 32 := by omega
  refine ⟨_, execTransmit_accepted alloc free latch (by omega), ⟨toNat_headerByte .., headerSrc_headerByte ..,
    headerDst_headerByte ..⟩, fun i inside => ?_, fun i after => getElem?_storeFrame_of_le _ after,
    armHost_len dest (clearPorts s) short, txBytes_armHost dest (clearPorts s) short⟩
  rw [Nat.add_comm]
  exact getElem?_storeFrame_of_lt (frame := headerByte s.session.la dest :: payload) s.tx.buf (Nat.succ_lt_succ inside)

end Sys2Proof.Machine
end

section
/-! SUPPORT. The waveforms of the wire rows (`30_encoding.md` R110 to R116): the level a list of bit periods leaves on the
line, and a frame's blocks with EOM only in the last. -/

namespace Sys2Proof.Machine

/-! ### Levels -/

/-- The periods before the one at hand have passed, and only the rest of the list counts. -/
theorem levelAfter_append {before : List Pulse} (ends : ∀ q ∈ before, q.low ≤ q.period) (ps : List Pulse) (d : Nat) :
    levelAfter (before ++ ps) (totalPeriod before + d) = levelAfter ps d := by
  induction before with
  | nil => simp [totalPeriod]
  | cons q before ih =>
    obtain ⟨qEnds, ends⟩ := List.forall_mem_cons.mp ends
    rw [List.cons_append, levelAfter, if_neg (by simp only [totalPeriod]; omega),
      if_neg (by simp only [totalPeriod]; omega), ← ih ends]
    congr 1
    simp only [totalPeriod]
    omega

/-- Inside a period the line is HIGH exactly after the low time. -/
theorem levelAfter_cons_inside {p : Pulse} {d : Nat} (inside : d < p.period) (ps : List Pulse) :
    levelAfter (p :: ps) d = decide (p.low ≤ d) := by
  rw [levelAfter, if_pos inside]
  split_ifs with low
  · exact (decide_eq_false (Nat.not_le.mpr low)).symm
  · exact (decide_eq_true (Nat.not_lt.mp low)).symm

/-- After the last period the line is released. -/
theorem levelAfter_end {ps : List Pulse} (ends : ∀ q ∈ ps, q.low ≤ q.period) (d : Nat) :
    levelAfter ps (totalPeriod ps + d) = true := by
  simpa [levelAfter] using levelAfter_append ends [] d

theorem levelAt_of_lt {fall t : Nat} (pulses : List Pulse) (early : t < fall) : levelAt pulses fall t = true :=
  if_pos early

theorem levelAt_add (pulses : List Pulse) (fall d : Nat) : levelAt pulses fall (fall + d) = levelAfter pulses d := by
  rw [levelAt, if_neg (by omega), Nat.add_sub_cancel_left]

/-- Settles O54: by induction over the periods that have passed. -/
theorem waveformLevels : Obligations.WaveformLevels := by
  intro before after p fall t ends
  refine ⟨levelAt_of_lt _, fun d inside time => ?_, fun late => ?_⟩
  · have passed : ∀ q ∈ before, q.low ≤ q.period := fun q hq => ends q (List.mem_append_left _ hq)
    rw [time, Nat.add_assoc, levelAt_add, levelAfter_append passed, levelAfter_cons_inside inside]
  · obtain ⟨d, rfl⟩ := Nat.exists_eq_add_of_le late
    rw [Nat.add_assoc, levelAt_add, levelAfter_end ends]

/-! ### Frames written out -/

/-- EOM is 1 in a frame's last block only (R112, R114). -/
theorem blocksPulses_append_last (c : Config) (blocks : List (Byte × Bool)) (d : Byte) (a : Bool) :
    blocksPulses c (blocks ++ [(d, a)]) =
      blocks.flatMap (fun p => blockPulses c p.1 false p.2) ++ blockPulses c d true a := by
  induction blocks with
  | nil => simp [blocksPulses]
  | cons p blocks ih =>
    have more : (blocks ++ [(d, a)]).isEmpty = false := by simp
    simp only [List.cons_append, blocksPulses, more, ih, List.flatMap_cons, List.append_assoc]

end Sys2Proof.Machine
end

section
/-! SUPPORT. The wire rows as runs of TICKs (log entry 6): a TICK neither reads the events before it nor drops them, so a
run of TICKs that collects its events is a run of single steps whose events are joined. -/

namespace Sys2Proof.Machine

/-! ### Events that are already there -/

/-- The state with `evs` before its events. -/
def prependEvents (evs : List Event) (s : State) : State := { s with events := evs ++ s.events }

section
variable (evs : List Event) (s : State)

@[simp] theorem prependEvents_params : (prependEvents evs s).params = s.params := rfl
@[simp] theorem prependEvents_cfg : (prependEvents evs s).cfg = s.cfg := rfl
@[simp] theorem prependEvents_session : (prependEvents evs s).session = s.session := rfl
@[simp] theorem prependEvents_seq : (prependEvents evs s).seq = s.seq := rfl
@[simp] theorem prependEvents_line : (prependEvents evs s).line = s.line := rfl
@[simp] theorem prependEvents_time : (prependEvents evs s).time = s.time := rfl
@[simp] theorem prependEvents_rx : (prependEvents evs s).rx = s.rx := rfl
@[simp] theorem prependEvents_tx : (prependEvents evs s).tx = s.tx := rfl
@[simp] theorem prependEvents_pinit : (prependEvents evs s).pinit = s.pinit := rfl

/-! No operation reads the events, so what stands before them can be put there first. -/

variable {evs s}

/-- Both branches of a choice that does not look at the events. -/
theorem prependEvents_ite {c : Prop} [Decidable c] {a b a' b' : State} (ha : prependEvents evs a = a')
    (hb : prependEvents evs b = b') : prependEvents evs (if c then a else b) = if c then a' else b' := by
  split
  · exact ha
  · exact hb

theorem prependEvents_setPhase {t : State} (ph : Phase) (h : prependEvents evs s = t) :
    prependEvents evs (setPhase ph s) = setPhase ph t :=
  congrArg (setPhase ph) h

theorem prependEvents_goTo {t : State} (st : EngineState) (role : Role) (h : prependEvents evs s = t) :
    prependEvents evs (goTo st role s) = goTo st role t :=
  congrArg (goTo st role) h

variable (evs s)

theorem prependEvents_emit (e : Event) : prependEvents evs (emit e s) = emit e (prependEvents evs s) := by
  simp [prependEvents, emit]

theorem prependEvents_setDrive (now : Nat) (v : Bool) :
    prependEvents evs (setDrive now v s) = setDrive now v (prependEvents evs s) :=
  prependEvents_ite rfl rfl

theorem prependEvents_startBit (now : Nat) (st : EngineState) :
    prependEvents evs (startBit now st s) = startBit now st (prependEvents evs s) := by
  unfold startBit
  dsimp only
  rw [← prependEvents_setDrive]
  rfl

theorem prependEvents_rxError (now : Nat) :
    prependEvents evs (rxError now s) = rxError now (prependEvents evs s) :=
  prependEvents_setPhase _ (prependEvents_goTo _ _ (prependEvents_setDrive ..))

theorem prependEvents_stampFree (p : Sample) :
    prependEvents evs (stampFree p s) = stampFree p (prependEvents evs s) :=
  prependEvents_ite rfl rfl

theorem prependEvents_nextCandidate (now : Nat) :
    prependEvents evs (nextCandidate now s) = nextCandidate now (prependEvents evs s) := by
  unfold nextCandidate
  dsimp only [advanceIdx_params, advanceIdx_cfg, advanceIdx_session, prependEvents_params, prependEvents_cfg,
    prependEvents_session]
  cases (s.params.candidatesFor s.cfg.devType)[(s.session.candIdx + 1).toNat]? with
  | none => exact prependEvents_emit ..
  | some c => rfl

theorem prependEvents_attemptEnd (now : Nat) (o : TxOutcome) :
    prependEvents evs (attemptEnd now o s) = attemptEnd now o (prependEvents evs s) := by
  unfold attemptEnd
  dsimp only [recordOutcome_tx, prependEvents_tx]
  cases s.tx.kind with
  | poll =>
    exact prependEvents_ite (prependEvents_nextCandidate ..) (prependEvents_ite (prependEvents_emit ..)
      (prependEvents_ite (prependEvents_nextCandidate ..) rfl))
  | host => exact prependEvents_ite (prependEvents_emit ..) (prependEvents_ite (prependEvents_emit ..) rfl)

theorem prependEvents_applyInit (now : Nat) :
    prependEvents evs (applyInit now s) = applyInit now (prependEvents evs s) := by
  unfold applyInit
  dsimp only [releaseSession_params, releaseSession_cfg, prependEvents_params, prependEvents_pinit]
  cases s.params.candidatesFor s.pinit.devType with
  | nil => exact prependEvents_emit ..
  | cons c rest => rfl

theorem prependEvents_recordRxBit (v : Bool) :
    prependEvents evs (recordRxBit v s) = recordRxBit v (prependEvents evs s) :=
  prependEvents_ite (prependEvents_ite rfl rfl) rfl

theorem prependEvents_recordRxAck (now : Nat) (ack : Bool) :
    prependEvents evs (recordRxAck now ack s) = recordRxAck now ack (prependEvents evs s) :=
  prependEvents_ite (prependEvents_ite (prependEvents_emit ..) rfl)
    (prependEvents_ite rfl (prependEvents_ite (prependEvents_rxError ..) rfl))

/-- No handler reads the events. -/
theorem prependEvents_runHandler (h : Handler) (p : Sample) :
    prependEvents evs (runHandler h p s) = runHandler h p (prependEvents evs s) := by
  have abort := prependEvents_rxError evs s p.now
  cases h with
  | none => rfl
  | idle =>
    exact prependEvents_ite rfl (prependEvents_ite (prependEvents_attemptEnd ..)
      (prependEvents_ite (prependEvents_startBit ..) rfl))
  | gap => exact prependEvents_ite rfl (prependEvents_ite rfl rfl)
  | awaitLow => exact prependEvents_ite (prependEvents_ite rfl abort) (prependEvents_ite abort rfl)
  | awaitTotal => exact prependEvents_ite (prependEvents_ite rfl abort) (prependEvents_ite abort rfl)
  | sendStart =>
    have lost := prependEvents_goTo .idle .none (prependEvents_setDrive evs s p.now false)
    exact prependEvents_ite (prependEvents_ite (prependEvents_setPhase _ (prependEvents_setDrive ..)) rfl)
      (prependEvents_ite (prependEvents_ite rfl
        ((prependEvents_attemptEnd ..).trans (congrArg (attemptEnd p.now .arbLost) lost))) rfl)
  | sendStartEnd => exact prependEvents_ite (prependEvents_startBit ..) rfl
  | txBitLow => exact prependEvents_ite (prependEvents_setPhase _ (prependEvents_setDrive ..)) rfl
  | txBitSample =>
    exact prependEvents_ite (prependEvents_ite
      (prependEvents_ite (prependEvents_attemptEnd ..) (prependEvents_attemptEnd ..))
      (prependEvents_setPhase _ (prependEvents_ite rfl rfl))) rfl
  | txBitEnd => exact prependEvents_ite (prependEvents_startBit ..) rfl
  | txAckLow => exact prependEvents_ite (prependEvents_setPhase _ (prependEvents_setDrive ..)) rfl
  | txAckSample =>
    exact prependEvents_ite (prependEvents_ite (prependEvents_attemptEnd ..)
      (prependEvents_ite (prependEvents_attemptEnd ..) rfl)) rfl
  | txAckEnd => exact prependEvents_ite (prependEvents_startBit ..) rfl
  | rxBitLow =>
    refine prependEvents_ite ?_ (prependEvents_ite abort rfl)
    dsimp only [prependEvents_params]
    cases classify s.params p.el with
    | none => exact abort
    | some v => exact prependEvents_setPhase _ (prependEvents_recordRxBit ..)
  | rxBitEnd =>
    exact prependEvents_ite (prependEvents_ite
      (prependEvents_ite (prependEvents_ite (prependEvents_setDrive ..) rfl) rfl) abort) (prependEvents_ite abort rfl)
  | rxAckLow =>
    refine prependEvents_ite (prependEvents_setDrive ..) (prependEvents_ite ?_ (prependEvents_ite abort rfl))
    dsimp only [prependEvents_params]
    cases classify s.params p.el with
    | none => exact abort
    | some v => exact prependEvents_recordRxAck ..
  | rxAckEnd => exact prependEvents_ite (prependEvents_ite rfl abort) (prependEvents_ite abort rfl)

theorem prependEvents_serveTick (now : Nat) (lineIn : Bool) :
    prependEvents evs (serveTick now lineIn s) = serveTick now lineIn (prependEvents evs s) := by
  rw [serveTick_eq, serveTick_eq]
  refine congrArg (epilogue (sampleOf now lineIn s)) ((prependEvents_runHandler ..).trans ?_)
  rw [prependEvents_stampFree]
  rfl

/-- A TICK neither reads the events before it nor drops them. -/
theorem prependEvents_tickAt (now : Nat) (lineIn : Bool) :
    prependEvents evs (tickAt now lineIn s) = tickAt now lineIn (prependEvents evs s) :=
  prependEvents_ite (congrArg (epilogue (sampleOf now lineIn s)) (prependEvents_stampFree ..))
    ((prependEvents_serveTick ..).trans
      (congrArg (serveTick now lineIn) (prependEvents_ite (prependEvents_applyInit ..) rfl)))

end

/-- A TICK answers nothing on the command port. -/
@[simp] theorem tickAt_response (now : Nat) (lineIn : Bool) (s : State) :
    (tickAt now lineIn s).response = s.response := by
  have served : ∀ u, (serveTick now lineIn u).response = u.response := fun u => by
    rw [serveTick_eq, epilogue_response, (runHandler_frame ..).response, stampFree_response]
  cases halted : stuck s with
  | true => simp [tickAt_stuck halted]
  | false =>
    rw [tickAt_served halted, served]
    split_ifs with due
    · obtain ⟨-, -, -, -, response, -⟩ := applyInit_frame now s
      exact response
    · rfl

/-! ### Runs of TICKs as single steps -/

/-- TICKs `gap` apart, each a step of its own, and the same TICKs run together hand over the same events. -/
theorem lineRun_of_runTicks (wave : Nat → Bool) {gap : Nat} (advances : 0 < gap) :
    ∀ (n : Nat) (s : State), ∃ evs t, LineRun wave gap n s evs t ∧
      ∀ before, runTicks wave gap n (prependEvents before (clearPorts s)) =
        { t with events := before ++ evs, response := none }
  | 0, s => ⟨[], s, .done s, fun before => rfl⟩
  | n + 1, s => by
    let now := s.time.tLast + gap
    let s' := tickAt now (wave now && !s.line.driveLow) (clearPorts s)
    obtain ⟨evs, t, run, joined⟩ := lineRun_of_runTicks wave advances n s'
    have first : exec (.tick now (wave now && !s.line.driveLow)) s = .next s' :=
      execTick_admitted _ (Nat.lt_add_of_pos_right advances)
    refine ⟨s'.events ++ evs, t, .tick first run, fun before => ?_⟩
    have carried : tickAt now (wave now && !s.line.driveLow) (prependEvents before (clearPorts s)) =
        prependEvents (before ++ s'.events) (clearPorts s') := by
      rw [← prependEvents_tickAt]
      simp [prependEvents, clearPorts, s']
    rw [← List.append_assoc, ← joined, ← carried]
    rfl

/-- `ticksBefore` counts the TICKs before `stop`. -/
theorem tickCount_ticksBefore (tLast stop : Nat) {gap : Nat} (advances : 0 < gap) :
    TickCount (ticksBefore tLast gap stop) tLast gap stop := by
  intro k hk
  have apart : 0 < k * gap := Nat.mul_pos hk advances
  rw [ticksBefore, Nat.le_div_iff_mul_le advances]
  omega

/-- A row with a waveform puts it on the line. -/
theorem exec_of_wireWave {i : Instr} {s : State} {sch : Sched} {pulses : List Pulse}
    (row : wireWave s.params i = some (sch, pulses)) : exec i s = .next (onWire sch pulses s) := by
  cases i <;> cases row <;> rfl

/-- Every wire row is single TICKs up to the end of its waveform, with their events joined. -/
theorem runsOnWire_of_wireWave {i : Instr} {s : State} {sch : Sched} {pulses : List Pulse} (advances : 0 < sch.gap)
    (row : wireWave s.params i = some (sch, pulses)) : RunsOnWire i sch pulses s := by
  obtain ⟨evs, t, run, joined⟩ := lineRun_of_runTicks (levelAt pulses sch.fall) advances
    (ticksBefore s.time.tLast sch.gap (sch.fall + totalPeriod pulses)) s
  refine ⟨_, evs, t, tickCount_ticksBefore _ _ advances, run, ?_⟩
  rw [exec_of_wireWave row]
  exact congrArg Host.Outcome.next (joined [])

/-- Settles O53: each row's waveform is the one R110 to R116 write out, and its TICKs are steps of their own. -/
theorem wireRowsRunTheirWaveform : Obligations.WireRowsRunTheirWaveform := by
  intro sch s advances
  have runs : ∀ i pulses, wireWave s.params i = some (sch, pulses) → RunsOnWire i sch pulses s :=
    fun _ _ row => runsOnWire_of_wireWave advances row
  refine ⟨fun _ _ => runs _ _ rfl, fun _ _ => runs _ _ rfl, fun _ _ => runs _ _ rfl, fun _ _ _ => runs _ _ rfl,
    fun _ => runs _ _ rfl, fun _ => runs _ _ rfl, fun _ _ => runs _ _ rfl, fun blocks d a => runs _ _ ?_,
    fun _ _ => runs _ _ rfl⟩
  exact congrArg (fun ps => some (sch, startPulse s.params :: ps)) (blocksPulses_append_last s.params blocks d a)

end Sys2Proof.Machine
end

section
/-! SUPPORT. The line interface (`40_line_interface.md` R151 to R155): READ and DRIVE as rows of their own, and what every
TICK does to the line registers and `t_free`, whichever handler it runs. -/

namespace Sys2Proof.Machine

/-! ### Line primitives -/

/-- `SetDrive(v)` writes `v` in any case, and `t_drive` where that is a change (R152). -/
theorem driven_eq (now : Nat) (v : Bool) (r : LineRegs) :
    driven now v r = { r with driveLow := v, tDrive := if v = r.driveLow then r.tDrive else now } := by
  unfold driven; split
  · next same => rw [same]
  · rfl

/-- `SetDrive` writes no register but the line's (R152). -/
theorem setDrive_eq (now : Nat) (v : Bool) (s : State) :
    setDrive now v s = { s with line := driven now v s.line } := by
  unfold setDrive driven; split <;> rfl

/-- Settles O18: READ clears the ports and answers the level. -/
theorem readReturnsLevel : Obligations.ReadReturnsLevel := fun _ _ => rfl

/-- Settles O19: DRIVE is `SetDrive` at `t_last` on cleared ports. -/
theorem driveSetsDrive : Obligations.DriveSetsDrive := by
  intro v s
  have drove : exec (.drive v) s = .next (setDrive s.time.tLast v (clearPorts s)) := rfl
  rw [drove, setDrive_eq, driven_eq]
  rfl

/-! ### The line across a handler -/

/-- From `s` to `t` the line registers stay, or one `SetDrive` at `now` writes them (R152). -/
inductive LineMoves (now : Nat) (t s : State) : Prop where
  | kept (line : t.line = s.line := by simp)
  | drove (v : Bool) (line : t.line = driven now v s.line := by simp)

/-- Either way `t_drive` dates the change of the drive. -/
theorem LineMoves.tDrive {now : Nat} {t s : State} (h : LineMoves now t s) :
    t.line.tDrive = if t.line.driveLow = s.line.driveLow then s.line.tDrive else now := by
  cases h with
  | kept line => rw [line, if_pos rfl]
  | drove v line => rw [line, driven_eq]

theorem attemptEnd_line (now : Nat) (o : TxOutcome) (s : State) : (attemptEnd now o s).line = s.line := by
  obtain ⟨-, -, -, line, -⟩ := attemptEnd_frame now o s
  exact line

/-- The ACK slot's record leaves the line, but for the abort of an overflow (R189, R191). -/
theorem recordRxAck_lineMoves (now : Nat) (ack : Bool) (s : State) : LineMoves now (recordRxAck now ack s) s := by
  unfold recordRxAck
  dsimp only
  split_ifs
  · exact .kept
  · exact .kept
  · exact .kept
  · exact .drove false
  · exact .kept

/-- A handler calls `SetDrive` at most once (R173 to R190). -/
theorem runHandler_lineMoves (h : Handler) (p : Sample) (s : State) : LineMoves p.now (runHandler h p s) s := by
  cases h <;> dsimp only [runHandler]
  case none => exact .kept
  case idle =>
    unfold handleIdle; split_ifs
    · exact .kept
    · exact .kept (attemptEnd_line ..)
    · exact .drove true
    · exact .kept
  case gap => unfold handleGap; split_ifs <;> exact .kept
  case awaitLow =>
    unfold handleAwaitLow; split_ifs
    · exact .kept
    · exact .drove false
    · exact .drove false
    · exact .kept
  case awaitTotal =>
    unfold handleAwaitTotal; split_ifs
    · exact .kept
    · exact .drove false
    · exact .drove false
    · exact .kept
  case sendStart =>
    unfold handleSendStart; split_ifs
    · exact .drove false
    · exact .kept
    · exact .kept
    · exact .drove false (by simp [attemptEnd_line])
    · exact .kept
  case sendStartEnd =>
    unfold handleSendStartEnd; split_ifs
    · exact .drove true
    · exact .kept
  case txBitLow =>
    unfold handleTxBitLow
    generalize (if txBit s.seq s.tx then s.params.oneLowNom else s.params.zeroLowNom) = low
    split_ifs
    · exact .drove false
    · exact .kept
  case txBitSample =>
    unfold handleTxBitSample; dsimp only; split_ifs
    · exact .kept (attemptEnd_line ..)
    · exact .kept (attemptEnd_line ..)
    all_goals exact .kept
  case txBitEnd =>
    unfold handleTxBitEnd; split_ifs
    · exact .drove true
    · exact .kept
  case txAckLow =>
    unfold handleTxAckLow; split_ifs
    · exact .drove false
    · exact .kept
  case txAckSample =>
    unfold handleTxAckSample; dsimp only; split_ifs
    · exact .kept (attemptEnd_line ..)
    · exact .kept (attemptEnd_line ..)
    all_goals exact .kept
  case txAckEnd =>
    unfold handleTxAckEnd; split_ifs
    · exact .drove true
    · exact .kept
  case rxBitLow =>
    unfold handleRxBitLow; split_ifs
    · split
      · exact .drove false
      · exact .kept
    · exact .drove false
    · exact .kept
  case rxBitEnd =>
    unfold handleRxBitEnd; dsimp only; split_ifs
    · exact .drove true
    · exact .kept
    · exact .kept
    · exact .drove false
    · exact .drove false
    · exact .kept
  case rxAckLow =>
    unfold handleRxAckLow; split_ifs
    · exact .drove false
    · split
      · exact .drove false
      · exact recordRxAck_lineMoves ..
    · exact .drove false
    · exact .kept
  case rxAckEnd =>
    unfold handleRxAckEnd; split_ifs
    · exact .kept
    · exact .drove false
    · exact .drove false
    · exact .kept

/-! ### The line across a TICK -/

/-- The sample's validity is R153's. -/
theorem sampleOf_valid {now : Nat} {lineIn : Bool} {s : State} :
    (sampleOf now lineIn s).valid = true ↔ ValidRead now s := decide_eq_true_iff

/-- The sample's rise is R154's. -/
theorem sampleOf_rise {now : Nat} {lineIn : Bool} {s : State} :
    (sampleOf now lineIn s).rise = true ↔ RiseSeen now lineIn s := by
  simp [sampleOf, readValid, RiseSeen, and_assoc]

/-- ApplyInit writes nothing the sample is computed from (R342). -/
theorem sampleOf_applyInit (now : Nat) (lineIn : Bool) (s : State) :
    sampleOf now lineIn (applyInit now s) = sampleOf now lineIn s := by
  obtain ⟨params, line, -, -, -, tFall, -⟩ := applyInit_frame now s
  simp only [sampleOf, readValid, params, line, tFall]

/-- Every TICK is its sampling, one handler (the empty one where R193 lets none run) and its epilogue (R170), on a state
`u` that an ApplyInit has made of `s` at most. -/
theorem tickAt_eq_epilogue (now : Nat) (lineIn : Bool) (s : State) :
    ∃ h u, u.line = s.line ∧ u.time.tFree = s.time.tFree ∧ u.input = s.input ∧
      tickAt now lineIn s = epilogue (sampleOf now lineIn s)
        (runHandler h (sampleOf now lineIn s) (stampFree (sampleOf now lineIn s) u)) := by
  cases halted : stuck s with
  | true => exact ⟨.none, s, rfl, rfl, rfl, tickAt_stuck halted⟩
  | false =>
    rw [tickAt_served halted]
    split_ifs with due
    · obtain ⟨-, line, -, input, -, -, tFree, -⟩ := applyInit_frame now s
      rw [serveTick_eq, sampleOf_applyInit]
      exact ⟨_, applyInit now s, line, tFree, input, rfl⟩
    · exact ⟨_, s, rfl, rfl, rfl, serveTick_eq now lineIn s⟩

/-- A TICK samples `last_line` exactly on a valid read (R154). -/
theorem tickAt_lastLine (now : Nat) (lineIn : Bool) (s : State) :
    (tickAt now lineIn s).line.lastLine = if ValidRead now s then lineIn else s.line.lastLine := by
  obtain ⟨h, u, line, -, -, tick⟩ := tickAt_eq_epilogue now lineIn s
  rw [tick, epilogue_line, (runHandler_frame ..).lastLine, stampFree_line, line]
  exact if_congr sampleOf_valid rfl rfl

/-- A TICK dates the free bus exactly at a rise (R155). -/
theorem tickAt_tFree (now : Nat) (lineIn : Bool) (s : State) :
    (tickAt now lineIn s).time.tFree = if RiseSeen now lineIn s then now else s.time.tFree := by
  obtain ⟨h, u, -, tFree, -, tick⟩ := tickAt_eq_epilogue now lineIn s
  rw [tick, epilogue_time, (runHandler_frame ..).tFree, stampFree_time, apply_ite TimeRegs.tFree, tFree]
  exact if_congr sampleOf_rise rfl rfl

/-- A TICK dates a change of the drive with its own time (R152). -/
theorem tickAt_tDrive (now : Nat) (lineIn : Bool) (s : State) :
    (tickAt now lineIn s).line.tDrive =
      if (tickAt now lineIn s).line.driveLow = s.line.driveLow then s.line.tDrive else now := by
  obtain ⟨h, u, line, -, -, tick⟩ := tickAt_eq_epilogue now lineIn s
  have dated := (runHandler_lineMoves h (sampleOf now lineIn s) (stampFree (sampleOf now lineIn s) u)).tDrive
  rw [stampFree_line, line] at dated
  rw [tick, epilogue_line]
  exact dated

/-- A TICK takes nothing off the ports. -/
@[simp] theorem tickAt_input (now : Nat) (lineIn : Bool) (s : State) : (tickAt now lineIn s).input = s.input := by
  obtain ⟨h, u, -, -, input, tick⟩ := tickAt_eq_epilogue now lineIn s
  rw [tick, epilogue_input, (runHandler_frame ..).input, stampFree_input, input]

/-- Settles O21: an admitted TICK is `tickAt` on cleared ports, and the registers named are those of its sampling, its
epilogue and the one `SetDrive` of its handler. -/
theorem tickSamplesLine : Obligations.TickSamplesLine := by
  intro now lineIn s later
  exact ⟨tickAt now lineIn (clearPorts s), execTick_admitted lineIn later, tickAt_tLast ..,
    tickAt_lastLine now lineIn (clearPorts s), tickAt_tFree now lineIn (clearPorts s),
    tickAt_tDrive now lineIn (clearPorts s), tickAt_params .., tickAt_input .., tickAt_response ..⟩

end Sys2Proof.Machine
end

section
/-! SUPPORT. A TICK as one handler run on the sampled state. No handler reads what the epilogue writes, so the epilogue can be
done before the handler (`runHandler_epilogue`), and an admitted TICK in a legal state of R172's table is the selected
handler applied to `sampled` (`exec_tick_served`). The handlers' statements then follow branch by branch. -/

namespace Sys2Proof.Machine

/-! ### The epilogue moves through every handler -/

section
variable {p : Sample} {s t : State}

/-! Each operation takes a state whose epilogue is done to the epilogue of what it makes of the state before it. -/

/-- Both branches of a choice that does not look at what the epilogue writes. -/
theorem ite_after_epilogue {c : Prop} [Decidable c] {a b a' b' : State} (ha : a' = epilogue p a)
    (hb : b' = epilogue p b) : (if c then a' else b') = epilogue p (if c then a else b) := by
  split
  · exact ha
  · exact hb

theorem setPhase_after_epilogue (ph : Phase) (h : t = epilogue p s) :
    setPhase ph t = epilogue p (setPhase ph s) :=
  congrArg (setPhase ph) h

theorem goTo_after_epilogue (st : EngineState) (role : Role) (h : t = epilogue p s) :
    goTo st role t = epilogue p (goTo st role s) :=
  congrArg (goTo st role) h

theorem setDrive_after_epilogue (now : Nat) (v : Bool) (h : t = epilogue p s) :
    setDrive now v t = epilogue p (setDrive now v s) :=
  h ▸ ite_after_epilogue rfl rfl

theorem startBit_after_epilogue (now : Nat) (st : EngineState) (h : t = epilogue p s) :
    startBit now st t = epilogue p (startBit now st s) := by
  unfold startBit
  dsimp only
  rw [setDrive_after_epilogue now true h]
  rfl

theorem rxError_after_epilogue (now : Nat) (h : t = epilogue p s) : rxError now t = epilogue p (rxError now s) :=
  setPhase_after_epilogue _ (goTo_after_epilogue _ _ (setDrive_after_epilogue now false h))

theorem attemptEnd_after_epilogue (now : Nat) (o : TxOutcome) (h : t = epilogue p s) :
    attemptEnd now o t = epilogue p (attemptEnd now o s) :=
  h ▸ attemptEnd_epilogue p now o s

theorem recordRxBit_after_epilogue (v : Bool) (h : t = epilogue p s) :
    recordRxBit v t = epilogue p (recordRxBit v s) :=
  h ▸ ite_after_epilogue (ite_after_epilogue rfl rfl) rfl

theorem recordRxAck_after_epilogue (now : Nat) (ack : Bool) (h : t = epilogue p s) :
    recordRxAck now ack t = epilogue p (recordRxAck now ack s) :=
  h ▸ ite_after_epilogue (ite_after_epilogue rfl rfl)
    (ite_after_epilogue rfl (ite_after_epilogue (rxError_after_epilogue now rfl) rfl))

variable (p s)

/-- No handler reads `last_line` or `t_last`, and none writes them (R170). -/
theorem runHandler_epilogue (h : Handler) (q : Sample) :
    runHandler h q (epilogue p s) = epilogue p (runHandler h q s) := by
  have abort : rxError q.now (epilogue p s) = epilogue p (rxError q.now s) := rxError_after_epilogue q.now rfl
  have release : setPhase .sampleRelease (setDrive q.now false (epilogue p s)) =
      epilogue p (setPhase .sampleRelease (setDrive q.now false s)) :=
    setPhase_after_epilogue .sampleRelease (setDrive_after_epilogue q.now false rfl)
  cases h with
  | none => rfl
  | idle =>
    exact ite_after_epilogue rfl (ite_after_epilogue (attemptEnd_after_epilogue _ _ rfl)
      (ite_after_epilogue (startBit_after_epilogue _ _ rfl) rfl))
  | gap => exact ite_after_epilogue rfl (ite_after_epilogue rfl rfl)
  | awaitLow => exact ite_after_epilogue (ite_after_epilogue rfl abort) (ite_after_epilogue abort rfl)
  | awaitTotal => exact ite_after_epilogue (ite_after_epilogue rfl abort) (ite_after_epilogue abort rfl)
  | sendStart =>
    have lost : goTo .idle .none (setDrive q.now false (epilogue p s)) =
        epilogue p (goTo .idle .none (setDrive q.now false s)) :=
      goTo_after_epilogue _ _ (setDrive_after_epilogue _ _ rfl)
    exact ite_after_epilogue (ite_after_epilogue release rfl)
      (ite_after_epilogue (ite_after_epilogue rfl (attemptEnd_after_epilogue _ _ lost)) rfl)
  | sendStartEnd => exact ite_after_epilogue (startBit_after_epilogue _ _ rfl) rfl
  | txBitLow => exact ite_after_epilogue release rfl
  | txBitSample =>
    exact ite_after_epilogue (ite_after_epilogue
      (ite_after_epilogue (attemptEnd_after_epilogue _ _ rfl) (attemptEnd_after_epilogue _ _ rfl))
      (setPhase_after_epilogue _ (ite_after_epilogue rfl rfl))) rfl
  | txBitEnd => exact ite_after_epilogue (startBit_after_epilogue _ _ rfl) rfl
  | txAckLow => exact ite_after_epilogue release rfl
  | txAckSample =>
    exact ite_after_epilogue (ite_after_epilogue (attemptEnd_after_epilogue _ _ rfl)
      (ite_after_epilogue (attemptEnd_after_epilogue _ _ rfl) rfl)) rfl
  | txAckEnd => exact ite_after_epilogue (startBit_after_epilogue _ _ rfl) rfl
  | rxBitLow =>
    refine ite_after_epilogue ?_ (ite_after_epilogue abort rfl)
    dsimp only [epilogue_params]
    cases classify s.params q.el with
    | none => exact abort
    | some v => exact setPhase_after_epilogue _ (recordRxBit_after_epilogue v rfl)
  | rxBitEnd =>
    exact ite_after_epilogue (ite_after_epilogue (ite_after_epilogue
      (ite_after_epilogue (setDrive_after_epilogue _ _ rfl) rfl) rfl) abort) (ite_after_epilogue abort rfl)
  | rxAckLow =>
    refine ite_after_epilogue (setDrive_after_epilogue _ _ rfl)
      (ite_after_epilogue ?_ (ite_after_epilogue abort rfl))
    dsimp only [epilogue_params]
    cases classify s.params q.el with
    | none => exact abort
    | some v => exact recordRxAck_after_epilogue _ _ rfl
  | rxAckEnd => exact ite_after_epilogue (ite_after_epilogue rfl abort) (ite_after_epilogue abort rfl)

end

/-! ### The sampled state -/

/-- The sample's fall is R154's. -/
theorem sampleOf_fall {now : Nat} {lineIn : Bool} {s : State} :
    (sampleOf now lineIn s).fall = true ↔ FallSeen now lineIn s := by
  simp [sampleOf, readValid, FallSeen, and_assoc]

/-- Sampling and epilogue alone leave `sampled` (R170). -/
theorem epilogue_stampFree_eq_sampled (now : Nat) (lineIn : Bool) (s : State) :
    epilogue (sampleOf now lineIn s) (stampFree (sampleOf now lineIn s) (clearPorts s)) = sampled now lineIn s := by
  have lastLine : (if (sampleOf now lineIn s).valid then lineIn else s.line.lastLine) =
      if ValidRead now s then lineIn else s.line.lastLine := if_congr sampleOf_valid rfl rfl
  have free : (sampleOf now lineIn s).rise = true ↔ RiseSeen now lineIn s := sampleOf_rise
  by_cases rise : RiseSeen now lineIn s
  · rw [stampFree, if_pos (free.mpr rise), sampled, sampledTime, sampledLine, if_pos rise, ← lastLine]
    rfl
  · rw [stampFree, if_neg (mt free.mp rise), sampled, sampledTime, sampledLine, if_neg rise, ← lastLine]
    rfl

/-- An admitted TICK with no INIT due, in a legal state of R172's table, is the selected handler on the sampled state. -/
theorem exec_tick_served {now : Nat} {lineIn : Bool} {s : State} {h : Handler} (later : s.time.tLast < now)
    (legal : Legal s) (noInit : initDue s = false) (selected : selectHandler s.seq.st s.seq.role s.seq.ph = h)
    (serves : h ≠ .none) :
    exec (.tick now lineIn) s = .next (runHandler h (sampleOf now lineIn s) (sampled now lineIn s)) := by
  subst selected
  have served : tickAt now lineIn (clearPorts s) = serveTick now lineIn (clearPorts s) := by
    have due : initDue (clearPorts s) = false := noInit
    rw [tickAt_served (s := clearPorts s) (stuck_eq_false.mpr ⟨legal, serves⟩), due]
    rfl
  rw [← epilogue_stampFree_eq_sampled, runHandler_epilogue]
  exact (execTick_admitted lineIn later).trans (congrArg Host.Outcome.next served)

/-- In the states outside IDLE and INTERFRAME_GAP no INIT is due. -/
theorem exec_tick_busy {now : Nat} {lineIn : Bool} {s : State} {h : Handler} (later : s.time.tLast < now)
    (legal : Legal s) (selected : selectHandler s.seq.st s.seq.role s.seq.ph = h)
    (serves : h ≠ .none ∧ h ≠ .idle ∧ h ≠ .gap) :
    exec (.tick now lineIn) s = .next (runHandler h (sampleOf now lineIn s) (sampled now lineIn s)) := by
  obtain ⟨some, notIdle, notGap⟩ := serves
  refine exec_tick_served later legal (initDue_of_busy ?_ ?_) selected some
  · intro st; rw [st] at selected; exact notIdle selected.symm
  · intro st; rw [st] at selected; exact notGap selected.symm

/-! ### Admission, and states no handler serves -/

/-- Settles O20: the admission test is `now <= t_last` and nothing else. -/
theorem tickAdmission : Obligations.TickAdmission := by
  intro now lineIn s
  refine ⟨fun stale => ?_, fun later => ⟨_, execTick_admitted lineIn later⟩⟩
  exact if_pos stale

/-- Settles O23: outside R172's table, and where R44 or a register code is broken, the state is stuck. -/
theorem offTableTickOnlySamples : Obligations.OffTableTickOnlySamples := by
  intro now lineIn s later off
  have halted : stuck (clearPorts s) = true := by
    rw [stuck_clearPorts]
    by_contra runs
    obtain ⟨legal, selected⟩ := stuck_eq_false.mp (Bool.not_eq_true _ ▸ runs)
    exact off.elim (· (selectHandler_ne_none_iff.mp selected)) (· legal)
  refine (execTick_admitted lineIn later).trans (congrArg Host.Outcome.next ?_)
  rw [tickAt_stuck halted]
  exact epilogue_stampFree_eq_sampled now lineIn s

end Sys2Proof.Machine
end

section
/-! SUPPORT. The handlers of the idle bus and of a sending core (`41_bit_timing.md` R173 to R185), each as the statement about
its TICK: `exec_tick_served` runs the handler on the sampled state, and the handler's branches are the statement's. -/

namespace Sys2Proof.Machine

/-! ### Branches -/

/-- A choice written the other way round. -/
theorem ite_flip_congr {α : Type} {c d : Prop} [Decidable c] [Decidable d] {a b a' b' : α} (h : c ↔ ¬ d)
    (ha : a = a') (hb : b = b') : (if c then a else b) = if d then b' else a' := by
  subst ha hb
  rw [if_congr h rfl rfl, ite_not]

/-- An edge inside its band goes on; an edge outside it, or none in time, aborts (R175, R176, R188, R190). -/
theorem edge_in_band {α : Type} {edge late : Prop} [Decidable edge] [Decidable late] {seen : Bool} {lo el hi : Nat}
    (h : seen = true ↔ edge) (go abort wait : α) :
    (if seen then if inBand lo el hi then go else abort else if late then abort else wait) =
      if edge ∧ lo ≤ el ∧ el ≤ hi then go else if edge ∨ late then abort else wait := by
  have band : inBand lo el hi = true ↔ lo ≤ el ∧ el ≤ hi := by simp [inBand]
  by_cases he : edge
  · simp only [if_pos (h.mpr he), band, he, true_and, true_or, if_true]
  · simp only [if_neg (mt h.mp he), he, false_and, false_or, if_false]

/-! ### Operations on the sampled state -/

/-- StartBit as one update (R192). -/
theorem startBit_eq (now : Nat) (st : EngineState) (s : State) :
    startBit now st s =
      { s with
        line := driven now true s.line, time := { s.time with tFall := now }
        seq := { s.seq with ph := .driveLowEdge, st := st } } := by
  unfold startBit
  rw [setDrive_eq]

/-- The abort of a reception at a TICK (R191, `60_exceptions.md` R383). -/
theorem rxError_sampled (now : Nat) (lineIn : Bool) (s : State) :
    rxError now (sampled now lineIn s) = abortedRx now lineIn s := by
  unfold rxError
  rw [setDrive_eq]
  rfl

/-- Releasing the line for the release check (R177, R180, R183). -/
theorem release_eq (now : Nat) (s : State) :
    setPhase .sampleRelease (setDrive now false s) =
      { s with line := driven now false s.line, seq := { s.seq with ph := .sampleRelease } } := by
  rw [setDrive_eq]
  rfl

/-! ### The idle bus -/

/-- Settles O24: the branches of R173 in their order. -/
theorem idleYieldsTimesOutOrStarts : Obligations.IdleYieldsTimesOutOrStarts := by
  intro now lineIn s later legal noInit st
  rw [exec_tick_served later legal (initDue_of_noInitDue noInit) (by rw [st]; rfl) (by decide : Handler.idle ≠ .none)]
  have late : (s.tx.pending && waitedOut now (sampled now lineIn s)) = true ↔
      s.tx.pending = true ∧ now - s.time.tAttempt ≥ s.params.tWaitFreeMax := by
    rw [Bool.and_eq_true, waitedOut, decide_eq_true_iff]
    rfl
  have free : (s.tx.pending && busFree (sampleOf now lineIn s) (sampled now lineIn s)) = true ↔
      s.tx.pending = true ∧ ValidRead now s ∧ lineIn = true ∧
        now - (sampledTime now lineIn s).tFree ≥ s.tx.sft * s.params.bitNom := by
    rw [Bool.and_eq_true, busFree, Bool.and_eq_true, Bool.and_eq_true, sampleOf_valid, decide_eq_true_iff, and_assoc]
    rfl
  exact congrArg Host.Outcome.next
    (if_congr sampleOf_fall rfl (if_congr late rfl (if_congr free (startBit_eq ..) rfl)))

/-- Settles O26: the branches of R174 in their order. -/
theorem gapEndsOrYields : Obligations.GapEndsOrYields := by
  intro now lineIn s later legal noInit st
  rw [exec_tick_served later legal (initDue_of_noInitDue noInit) (by rw [st]; rfl) (by decide : Handler.gap ≠ .none)]
  exact congrArg Host.Outcome.next (if_congr sampleOf_fall rfl (if_congr Iff.rfl rfl rfl))

/-- Settles O27: in each sub-phase an edge and its band. -/
theorem startBitIsTimed : Obligations.StartBitIsTimed := by
  intro now lineIn s later legal st
  constructor <;> intro ph
  · rw [exec_tick_busy (h := .awaitLow) later legal (by rw [st, ph]; rfl) (by decide), ← rxError_sampled]
    exact congrArg Host.Outcome.next (edge_in_band sampleOf_rise ..)
  · rw [exec_tick_busy (h := .awaitTotal) later legal (by rw [st, ph]; rfl) (by decide), ← rxError_sampled]
    exact congrArg Host.Outcome.next (edge_in_band sampleOf_fall ..)

/-! ### A sending core -/

/-- Settles O28: the release at nominal and the check at the first valid read after it. -/
theorem startBitIsSentAndChecked : Obligations.StartBitIsSentAndChecked := by
  intro now lineIn s later legal st
  constructor <;> intro ph
  · rw [exec_tick_busy (h := .sendStart) later legal (by rw [st, ph]; rfl) (by decide)]
    refine congrArg Host.Outcome.next ((if_pos ph).trans ?_)
    exact if_congr Iff.rfl (release_eq ..) rfl
  · have sending : ¬ s.seq.ph = .driveLowEdge := by rw [ph]; decide
    rw [exec_tick_busy (h := .sendStart) later legal (by rw [st, ph]; rfl) (by decide)]
    refine congrArg Host.Outcome.next ((if_neg sending).trans ?_)
    have high : lineIn = true ↔ ¬ lineIn = false := iff_of_eq (Bool.not_eq_false lineIn).symm
    refine ite_flip_congr (sampleOf_valid.trans not_not.symm) (ite_flip_congr high rfl ?_) rfl
    rw [setDrive_eq]
    rfl

/-- Settles O29: StartBit at the nominal end of the start bit. -/
theorem startBitEnds : Obligations.StartBitEnds := by
  intro now lineIn s later legal st ph
  rw [exec_tick_busy (h := .sendStartEnd) later legal (by rw [st, ph]; rfl) (by decide)]
  exact congrArg Host.Outcome.next (if_congr Iff.rfl (startBit_eq ..) rfl)

/-- Settles O30: the release after the low time of the bit being sent. -/
theorem sentBitHoldsNominalLow : Obligations.SentBitHoldsNominalLow := by
  intro now lineIn s later legal st role ph
  rw [exec_tick_busy (h := .txBitLow) later legal (by rw [st, role, ph]; rfl) (by decide)]
  exact congrArg Host.Outcome.next (if_congr Iff.rfl (release_eq ..) rfl)

/-- A sample is taken unless it is too early or the read is not valid yet (R181, R184). -/
theorem sample_taken_iff (now : Nat) (lineIn : Bool) (s : State) :
    (s.params.tSample ≤ (sampleOf now lineIn s).el ∧ (sampleOf now lineIn s).valid = true) ↔
      ¬ (elapsed now s < s.params.tSample ∨ ¬ ValidRead now s) := by
  rw [sampleOf_valid, not_or, not_lt, not_not]
  rfl

/-- Settles O31: the sample, then the bit read, then the nibble it stands in. -/
theorem sentBitIsSampled : Obligations.SentBitIsSampled := by
  intro now lineIn s later legal st role ph
  rw [exec_tick_busy (h := .txBitSample) later legal (by rw [st, role, ph]; rfl) (by decide)]
  have lost : (txBit s.seq s.tx && !lineIn) = true ↔ txBit s.seq s.tx = true ∧ lineIn = false := by
    rw [Bool.and_eq_true, Bool.not_eq_true']
  refine congrArg Host.Outcome.next (ite_flip_congr (sample_taken_iff now lineIn s) (if_congr lost rfl ?_) rfl)
  by_cases data : s.seq.bitIdx.toNat ≤ 7
  · rw [if_pos data]
    exact congrArg (setPhase .fullBitWait) (if_pos data)
  · rw [if_neg data]
    exact congrArg (setPhase .fullBitWait) (if_neg data)

/-- Settles O32: each period ends at its nominal time. -/
theorem sentPeriodsAdvance : Obligations.SentPeriodsAdvance := by
  intro now lineIn s later legal role
  refine ⟨fun st ph => ?_, fun st ph => ?_, fun st ph => ?_⟩
  · rw [exec_tick_busy (h := .txBitEnd) later legal (by rw [st, role, ph]; rfl) (by decide)]
    exact congrArg Host.Outcome.next (if_congr Iff.rfl (startBit_eq ..) rfl)
  · rw [exec_tick_busy (h := .txAckLow) later legal (by rw [st, role, ph]; rfl) (by decide)]
    exact congrArg Host.Outcome.next (if_congr Iff.rfl (release_eq ..) rfl)
  · rw [exec_tick_busy (h := .txAckEnd) later legal (by rw [st, role, ph]; rfl) (by decide)]
    exact congrArg Host.Outcome.next (if_congr Iff.rfl (startBit_eq ..) rfl)

/-- The destination 15 of a header, as a number (R113). -/
theorem headerDst_eq_fifteen_iff (h : Byte) : headerDst h = 15 ↔ h.toNat % 16 = 15 := by
  revert h; decide

/-- Settles O33: the ack is the level read with the polarity of the destination, and its value decides. -/
theorem ackSampleDecidesAttempt : Obligations.AckSampleDecidesAttempt := by
  intro now lineIn s later legal st role ph
  have polarity : ackOf (directed (txHeader s.tx)) lineIn =
      if (s.tx.buf.getD 0 0).toNat % 16 = 15 then lineIn else !lineIn :=
    (ackOf_directed ..).trans (if_congr (headerDst_eq_fifteen_iff _) rfl rfl)
  have last : lastBlock s.seq s.tx = true ↔ s.seq.blk.toNat = s.tx.len.toNat - 1 := beq_iff_eq
  rw [exec_tick_busy (h := .txAckSample) later legal (by rw [st, role, ph]; rfl) (by decide)]
  dsimp only
  rw [← polarity]
  refine congrArg Host.Outcome.next (ite_flip_congr (sample_taken_iff now lineIn s) ?_ rfl)
  exact if_congr (iff_of_eq (Bool.not_eq_true' _)) rfl (if_congr last rfl rfl)

end Sys2Proof.Machine
end

section
/-! SUPPORT. The handlers of a receiving core (`41_bit_timing.md` R186 to R190), each as the statement about its TICK, and
what a receiver may drive (R197). -/

namespace Sys2Proof.Machine

/-! ### Decoding a low time -/

/-- A rise whose low time lies in a band is decoded, DATA1's band first; any other rise, or none in time, aborts
(R186, R187, R189). -/
theorem rise_decoded {α : Type} {edge late : Prop} [Decidable edge] [Decidable late] {seen : Bool} (c : Config)
    (low : Nat) (h : seen = true ↔ edge) (decoded : Bool → α) (abort wait : α) :
    (if seen then (classify c low).elim abort decoded else if late then abort else wait) =
      if edge ∧ ((c.oneLowMin ≤ low ∧ low ≤ c.oneLowMax) ∨ (c.zeroLowMin ≤ low ∧ low ≤ c.zeroLowMax)) then
        decoded (decide (c.oneLowMin ≤ low ∧ low ≤ c.oneLowMax))
      else if edge ∨ late then abort else wait := by
  by_cases he : edge
  · rw [if_pos (h.mpr he)]
    by_cases one : c.oneLowMin ≤ low ∧ low ≤ c.oneLowMax
    · rw [classify_one one, if_pos ⟨he, .inl one⟩, decide_eq_true one]
      rfl
    · by_cases zero : c.zeroLowMin ≤ low ∧ low ≤ c.zeroLowMax
      · rw [classify_zero one zero, if_pos ⟨he, .inr zero⟩, decide_eq_false one]
        rfl
      · rw [classify_err one zero, if_neg fun ⟨_, band⟩ => band.elim one zero, if_pos (.inl he)]
        rfl
  · rw [if_neg (mt h.mp he), if_neg (mt And.left he), if_congr (or_iff_right he) rfl rfl]

/-- AckMe as a proposition (R256). -/
theorem ackMe_eq_decide (g : SessionRegs) (h : Byte) :
    ackMe g h = decide (g.alloc = .claimed ∧ headerDst h = g.la ∧ headerDst h ≠ 15) := by
  simp [ackMe, Bool.and_assoc, Bool.beq_eq_decide_eq, bne]

/-- Wanted as a proposition (R259). -/
theorem wanted_iff (k : CfgRegs) (g : SessionRegs) (h : Byte) :
    wanted k g h = true ↔ k.prom = true ∨ headerDst h = 15 ∨ (g.alloc = .claimed ∧ headerDst h = g.la) := by
  simp [wanted, or_assoc]

/-- Decoding a bit writes the receive datapath only (R187). -/
theorem recordRxBit_eq (v : Bool) (s : State) :
    recordRxBit v s = { s with rx := decodedBit s.session s.seq v s.rx } := by
  have isLast : s.seq.bitIdx = 7 ↔ s.seq.bitIdx.toNat = 7 := ⟨fun h => by rw [h]; rfl, fun h => BitVec.eq_of_toNat_eq h⟩
  unfold recordRxBit decodedBit
  dsimp only
  rcases Nat.lt_trichotomy s.seq.bitIdx.toNat 7 with before | last | after
  · rw [if_pos before.le, if_neg (mt isLast.mp before.ne), if_pos before]
  · rw [if_pos last.le, if_pos (isLast.mpr last), if_neg last.not_lt, if_pos last, ackMe_eq_decide]
  · rw [if_neg (Nat.not_le.mpr after), if_neg (Nat.not_lt.mpr after.le), if_neg after.ne']

/-- R187's handler with the decoding as a choice. -/
theorem handleRxBitLow_eq (p : Sample) (s : State) :
    handleRxBitLow p s =
      if p.rise then
        (classify s.params p.el).elim (rxError p.now s) fun v => setPhase .fullBitWait (recordRxBit v s)
      else if s.params.zeroLowMax < p.el then rxError p.now s
      else s := by
  unfold handleRxBitLow
  cases classify s.params p.el <;> rfl

/-- R189's handler with the decoding as a choice. -/
theorem handleRxAckLow_eq (p : Sample) (s : State) :
    handleRxAckLow p s =
      if s.line.driveLow = true ∧ s.params.tAckLow ≤ p.el then setDrive p.now false s
      else if p.rise then
        (classify s.params p.el).elim (rxError p.now s) fun v =>
          recordRxAck p.now (ackOf (directed (rxHeader s.rx)) v) s
      else if s.line.driveLow = false ∧ s.params.zeroLowMax < p.el then rxError p.now s
      else s := by
  unfold handleRxAckLow
  cases classify s.params p.el <;> rfl

/-! ### The received ACK slot -/

/-- The receive record once the ack of block `blk` stands in it (R189). -/
def ackRecorded (blk : BitVec 4) (ack : Bool) (r : RxRegs) : RxRegs :=
  { r with ack := r.ack.set blk.toNat ack, len := blk.zeroExtend 5 + 1 }

/-- What the end of a frame hands over: the record of its blocks, where the frame is wanted (R189, R259). -/
def delivery (s : State) (ack : Bool) : List Event :=
  let r := ackRecorded s.seq.blk ack s.rx
  let n := s.seq.blk.toNat + 1
  if s.cfg.prom = true ∨ headerDst (rxHeader s.rx) = 15 ∨
      (s.session.alloc = .claimed ∧ headerDst (rxHeader s.rx) = s.session.la) then
    [.rxComplete (r.buf.take n) (r.ack.take n) ((r.ack.take n).all id)]
  else []

/-- `rx_len` counts the block just received (R189). -/
theorem ackRecorded_len (blk : BitVec 4) (ack : Bool) (r : RxRegs) :
    (ackRecorded blk ack r).len.toNat = blk.toNat + 1 := by
  have wide : ∀ b : BitVec 4, (b.zeroExtend 5 + 1).toNat = b.toNat + 1 := by decide
  exact wide blk

/-- The slot's ack recorded at a TICK, and what it decides of the frame (R189). -/
theorem recordRxAck_sampled (now : Nat) (lineIn ack : Bool) (s : State) :
    recordRxAck now ack (sampled now lineIn s) =
      (if s.rx.eom = true then
         { sampled now lineIn s with
           seq := { s.seq with st := .interframeGap }, rx := ackRecorded s.seq.blk ack s.rx, events := delivery s ack }
       else if ack = false then
         { sampled now lineIn s with
           seq := { s.seq with st := .idle, role := .none }, rx := ackRecorded s.seq.blk ack s.rx }
       else if s.seq.blk.toNat + 1 ≥ s.params.maxFrame then
         { abortedRx now lineIn s with rx := ackRecorded s.seq.blk ack s.rx }
       else
         { sampled now lineIn s with
           seq := { s.seq with ph := .fullBitWait }, rx := ackRecorded s.seq.blk ack s.rx }) := by
  have len := ackRecorded_len s.seq.blk ack s.rx
  refine if_congr Iff.rfl ?_ (if_congr (iff_of_eq (Bool.not_eq_true' _)) rfl (if_congr Iff.rfl ?_ rfl))
  · rw [delivery, ← len]
    by_cases hears : wanted s.cfg s.session (rxHeader s.rx) = true
    · rw [if_pos ((wanted_iff ..).mp hears)]
      exact if_pos hears
    · rw [if_neg (mt (wanted_iff ..).mpr hears)]
      exact if_neg hears
  · unfold rxError
    rw [setDrive_eq]
    rfl

/-! ### A receiving core -/

/-- Settles O34: a rise is decoded and its bit recorded. -/
theorem receivedBitIsDecoded : Obligations.ReceivedBitIsDecoded := by
  intro now lineIn s later legal st role ph
  rw [exec_tick_busy (h := .rxBitLow) later legal (by rw [st, role, ph]; rfl) (by decide), ← rxError_sampled]
  refine congrArg Host.Outcome.next ((handleRxBitLow_eq ..).trans
    ((rise_decoded _ _ sampleOf_rise ..).trans (if_congr Iff.rfl ?_ rfl)))
  rw [recordRxBit_eq]
  rfl

/-- Settles O35: an edge in the bit period's band, and after bit 8 the ACK pulse. -/
theorem receivedBitEndsAndAcks : Obligations.ReceivedBitEndsAndAcks := by
  intro now lineIn s later legal st role ph
  rw [exec_tick_busy (h := .rxBitEnd) later legal (by rw [st, role, ph]; rfl) (by decide), ← rxError_sampled]
  refine congrArg Host.Outcome.next ((edge_in_band sampleOf_fall ..).trans (if_congr Iff.rfl ?_ rfl))
  have ninth : s.seq.bitIdx + 1 = 9 ↔ s.seq.bitIdx = 8 := by
    generalize s.seq.bitIdx = i
    revert i; decide
  by_cases last : s.seq.bitIdx = 8
  · refine (if_pos (ninth.mpr last)).trans ?_
    by_cases acks : s.rx.ackMe = true
    · rw [if_pos last, if_pos (And.intro last acks)]
      refine (if_pos acks).trans ?_
      rw [setDrive_eq]
      rfl
    · rw [if_pos last, if_neg (mt And.right acks)]
      exact if_neg acks
  · rw [if_neg last, if_neg (mt And.left last), ← st]
    exact if_neg (mt ninth.mp last)

/-- Settles O36: the pulse's end first, then a rise decoded and its ack recorded. -/
theorem receivedAckDecidesFrame : Obligations.ReceivedAckDecidesFrame := by
  intro now lineIn s later legal st role ph
  rw [exec_tick_busy (h := .rxAckLow) later legal (by rw [st, role, ph]; rfl) (by decide), ← rxError_sampled]
  have released : setDrive now false (sampled now lineIn s) =
      { sampled now lineIn s with line := driven now false (sampledLine now lineIn s) } := setDrive_eq ..
  refine congrArg Host.Outcome.next ((handleRxAckLow_eq ..).trans (if_congr Iff.rfl released
    ((rise_decoded _ _ sampleOf_rise ..).trans (if_congr Iff.rfl ?_ rfl))))
  rw [← ackOf_directed, rxError_sampled]
  exact recordRxAck_sampled ..

/-- Settles O37: the first fall of the next block in the bit period's band. -/
theorem receivedBlockFollows : Obligations.ReceivedBlockFollows := by
  intro now lineIn s later legal st role ph
  rw [exec_tick_busy (h := .rxAckEnd) later legal (by rw [st, role, ph]; rfl) (by decide), ← rxError_sampled, ← role]
  exact congrArg Host.Outcome.next (edge_in_band sampleOf_fall ..)

/-! ### What a receiver drives -/

@[simp] theorem attemptEnd_seq (now : Nat) (o : TxOutcome) (s : State) : (attemptEnd now o s).seq = s.seq := by
  obtain ⟨-, -, seq, -⟩ := attemptEnd_frame now o s
  exact seq

@[simp] theorem attemptEnd_rx (now : Nat) (o : TxOutcome) (s : State) : (attemptEnd now o s).rx = s.rx := by
  obtain ⟨-, -, -, -, rx, -⟩ := attemptEnd_frame now o s
  exact rx

/-- Only the handlers that begin a received frame or decode a bit write `ack_me` (R176, R181, R187). -/
theorem runHandler_ackMe {h : Handler} (notTotal : h ≠ .awaitTotal) (notSample : h ≠ .txBitSample)
    (notBit : h ≠ .rxBitLow) (p : Sample) (s : State) : (runHandler h p s).rx.ackMe = s.rx.ackMe := by
  cases h <;> dsimp only [runHandler]
  case awaitTotal | txBitSample | rxBitLow => contradiction
  case idle => unfold handleIdle; split_ifs <;> simp
  case gap => unfold handleGap; split_ifs <;> simp
  case awaitLow => unfold handleAwaitLow; split_ifs <;> simp
  case sendStart => unfold handleSendStart; split_ifs <;> simp
  case sendStartEnd => unfold handleSendStartEnd; split_ifs <;> simp
  case txBitLow => rw [handleTxBitLow, apply_ite State.rx]; simp
  case txBitEnd => unfold handleTxBitEnd; split_ifs <;> simp
  case txAckLow => unfold handleTxAckLow; split_ifs <;> simp
  case txAckSample => unfold handleTxAckSample; dsimp only; split_ifs <;> simp
  case txAckEnd => unfold handleTxAckEnd; split_ifs <;> simp
  case rxBitEnd => unfold handleRxBitEnd; dsimp only; split_ifs <;> simp
  case rxAckLow =>
    have recorded (ack : Bool) : (recordRxAck p.now ack s).rx.ackMe = s.rx.ackMe := by
      unfold recordRxAck; dsimp only; split_ifs <;> simp
    rw [handleRxAckLow_eq]
    cases classify s.params p.el <;> split_ifs <;> simp [recorded]
  case rxAckEnd => unfold handleRxAckEnd; split_ifs <;> simp

/-- R172 selects the handlers of a bit's sample and of a received bit in BIT_PERIOD only. -/
theorem bitPeriod_of_selectHandler {st : EngineState} {role : Role} {ph : Phase}
    (h : selectHandler st role ph = .txBitSample ∨ selectHandler st role ph = .rxBitLow) : st = .bitPeriod := by
  cases st <;> cases role <;> cases ph <;> simp_all [selectHandler]

/-- A handler that leaves the core in the ACK slot has not decided `ack_me` (R176, R181 and R187 leave it elsewhere). -/
theorem runHandler_ackMe_of_ackWindow {p : Sample} {s : State}
    (slot : (runHandler (selectHandler s.seq.st s.seq.role s.seq.ph) p s).seq.st = .ackWindow) :
    (runHandler (selectHandler s.seq.st s.seq.role s.seq.ph) p s).rx.ackMe = s.rx.ackMe := by
  generalize selected : selectHandler s.seq.st s.seq.role s.seq.ph = h at slot ⊢
  by_cases total : h = .awaitTotal
  · subst total
    dsimp only [runHandler, handleAwaitTotal] at slot ⊢
    split_ifs at slot ⊢ <;> simp_all
  by_cases sample : h = .txBitSample
  · have st := bitPeriod_of_selectHandler (.inl (selected.trans sample))
    subst sample
    dsimp only [runHandler, handleTxBitSample] at slot ⊢
    split_ifs at slot ⊢ <;> simp_all
  by_cases bit : h = .rxBitLow
  · have st := bitPeriod_of_selectHandler (.inr (selected.trans bit))
    subst bit
    dsimp only [runHandler] at slot ⊢
    rw [handleRxBitLow_eq] at slot ⊢
    generalize classify s.params p.el = decoded at slot ⊢
    cases decoded <;> split_ifs at slot ⊢ <;> simp_all
  exact runHandler_ackMe total sample bit p s

/-- A TICK that leaves the core in the ACK slot has not decided `ack_me`. -/
theorem tickAt_ackMe_of_ackWindow {now : Nat} {lineIn : Bool} {s : State}
    (slot : (tickAt now lineIn s).seq.st = .ackWindow) : (tickAt now lineIn s).rx.ackMe = s.rx.ackMe := by
  have served (u : State) (slot : (serveTick now lineIn u).seq.st = .ackWindow) :
      (serveTick now lineIn u).rx.ackMe = u.rx.ackMe := by
    rw [serveTick_eq, epilogue_seq, ← stampFree_seq (sampleOf now lineIn u) u] at slot
    have kept := runHandler_ackMe_of_ackWindow slot
    rw [stampFree_rx, stampFree_seq] at kept
    rw [serveTick_eq, epilogue_rx, kept]
  cases halted : stuck s with
  | true => rw [tickAt_stuck halted, epilogue_rx, stampFree_rx]
  | false =>
    rw [tickAt_served halted] at slot ⊢
    rw [served _ slot]
    split_ifs with due
    · obtain ⟨-, -, rx, -⟩ := applyInit_frame now s
      rw [rx]
    · rfl

/-- Settles O52: the drive is allowed by R44's item 4, and a TICK that leads to the ACK slot keeps `ack_me`. -/
theorem receiverDrivesOnlyItsAck : Obligations.ReceiverDrivesOnlyItsAck := by
  intro now lineIn s t inv wiredAnd tick drives notTx
  obtain ⟨later, rfl⟩ := execTick_eq_next tick
  have cleared : RunInvariant (clearPorts s) := inv.withPorts ..
  have after : RunInvariant (tickAt now lineIn (clearPorts s)) := cleared.tickAt later.le wiredAnd
  rcases after.drive drives with ⟨tx, -⟩ | ⟨role, st, ph, me⟩
  · exact absurd tx notTx
  · exact ⟨role, st, ph, me, (tickAt_ackMe_of_ackWindow st).symm.trans me⟩

end Sys2Proof.Machine
end

section
/-! SUPPORT. A wire row as its edges. A TICK does not read `t_last` (`tickAt_waited`), so the TICKs of a row are cut at the
edges of its waveform: up to an edge they keep what single TICKs keep (`ticksUntil_edge`), and the first TICK at or after
the edge, less than one gap late, is the one that meets it (`41_bit_timing.md` R196). -/

namespace Sys2Proof.Machine

/-! ### Time that only passes -/

/-- The state `s` at `now`, when the TICKs up to `now` have changed nothing but `t_last`. -/
def waited (now : Nat) (s : State) : State := { s with time := { s.time with tLast := now } }

section
variable (now : Nat) (s : State)

@[simp] theorem waited_params : (waited now s).params = s.params := rfl
@[simp] theorem waited_line : (waited now s).line = s.line := rfl
@[simp] theorem waited_time : (waited now s).time = { s.time with tLast := now } := rfl
@[simp] theorem waited_pinit : (waited now s).pinit = s.pinit := rfl

/-- Passing time is an epilogue that samples nothing. -/
theorem waited_eq_epilogue : waited now s = epilogue ⟨now, false, false, false, false, 0⟩ s := rfl

theorem applyInit_waited (t : Nat) : applyInit now (waited t s) = waited t (applyInit now s) := by
  unfold applyInit
  dsimp only [releaseSession_params, releaseSession_cfg, waited_params, waited_pinit]
  cases s.params.candidatesFor s.pinit.devType <;> rfl

theorem stampFree_waited (p : Sample) (t : Nat) : stampFree p (waited t s) = waited t (stampFree p s) := by
  unfold stampFree; split <;> rfl

theorem serveTick_waited (lineIn : Bool) (t : Nat) : serveTick now lineIn (waited t s) = serveTick now lineIn s := by
  rw [serveTick_eq, serveTick_eq, stampFree_waited, waited_eq_epilogue t (stampFree _ _), runHandler_epilogue]
  rfl

/-- A TICK does not read `t_last`. -/
theorem tickAt_waited (lineIn : Bool) (t : Nat) : tickAt now lineIn (waited t s) = tickAt now lineIn s := by
  have same : stuck (waited t s) = stuck s := rfl
  have due : initDue (waited t s) = initDue s := rfl
  cases halted : stuck s with
  | true =>
    rw [tickAt_stuck halted, tickAt_stuck (same.trans halted), stampFree_waited]
    rfl
  | false =>
    rw [tickAt_served halted, tickAt_served (same.trans halted), due, applyInit_waited,
      ← apply_ite (waited t), serveTick_waited]

end

/-! ### From a step's TICK to the run's -/

/-- In a run a TICK does what the step does, with its events after those already there. -/
theorem tickAt_of_exec {now : Nat} {lineIn : Bool} {s t : State} (silent : s.response = none)
    (h : exec (.tick now lineIn) s = .next t) : tickAt now lineIn s = { t with events := s.events ++ t.events } := by
  obtain ⟨-, rfl⟩ := execTick_eq_next h
  have ports : s = prependEvents s.events (clearPorts s) := by
    cases s; subst silent; simp [prependEvents, clearPorts]
  conv_lhs => rw [ports, ← prependEvents_tickAt]
  rfl

/-- Where a valid read would find the level last read, sampling only lets time pass. -/
theorem sampled_still {now : Nat} {lineIn : Bool} {s : State} (still : ValidRead now s → lineIn = s.line.lastLine) :
    sampled now lineIn s = { waited now s with events := [], response := none } := by
  have noRise : ¬ RiseSeen now lineIn s := fun ⟨valid, low, high⟩ => by
    rw [still valid, low] at high; cases high
  have line : sampledLine now lineIn s = s.line := by
    unfold sampledLine
    split_ifs with valid
    · rw [still valid]
    · rfl
  rw [sampled, line, sampledTime, if_neg noRise]
  rfl

/-- The sampled state at a fall. -/
theorem sampled_fall {now : Nat} {s : State} (valid : ValidRead now s) :
    sampled now false s =
      { s with
        line := { s.line with lastLine := false }, time := { s.time with tLast := now }
        events := [], response := none } := by
  have noRise : ¬ RiseSeen now false s := fun ⟨_, _, high⟩ => by cases high
  rw [sampled, sampledLine, if_pos valid, sampledTime, if_neg noRise]

/-- The sampled state at a rise. -/
theorem sampled_rise {now : Nat} {s : State} (rise : RiseSeen now true s) :
    sampled now true s =
      { s with
        line := { s.line with lastLine := true }, time := { s.time with tFree := now, tLast := now }
        events := [], response := none } := by
  rw [sampled, sampledLine, if_pos rise.left, sampledTime, if_pos rise]

/-! ### The TICKs up to a time -/

/-- The TICKs, `gap` apart, that come before time `stop`. -/
def ticksUntil (wave : Nat → Bool) (gap stop : Nat) (s : State) : State :=
  runTicks wave gap (ticksBefore s.time.tLast gap stop) s

/-- A wire row is the TICKs up to the end of its waveform. -/
theorem onWire_eq_ticksUntil (sch : Sched) (pulses : List Pulse) (s : State) :
    onWire sch pulses s =
      ticksUntil (levelAt pulses sch.fall) sch.gap (sch.fall + totalPeriod pulses) (clearPorts s) := rfl

/-- The TICK of a run that comes `gap` after the last one. -/
def nextTick (wave : Nat → Bool) (gap : Nat) (s : State) : State :=
  tickAt (s.time.tLast + gap) (wave (s.time.tLast + gap) && !s.line.driveLow) s

section
variable {wave : Nat → Bool} {gap stop : Nat}

theorem ticksUntil_of_lt (advances : 0 < gap) {s : State} (more : s.time.tLast + gap < stop) :
    ticksUntil wave gap stop s = ticksUntil wave gap stop (nextTick wave gap s) := by
  have count : ticksBefore s.time.tLast gap stop = ticksBefore (s.time.tLast + gap) gap stop + 1 := by
    unfold ticksBefore
    rw [Nat.div_eq_sub_div advances (by omega)]
    congr 2
    omega
  rw [ticksUntil, ticksUntil, count, nextTick, tickAt_tLast]
  rfl

theorem ticksUntil_of_le {s : State} (ended : stop ≤ s.time.tLast + gap) (advances : 0 < gap) :
    ticksUntil wave gap stop s = s := by
  have count : ticksBefore s.time.tLast gap stop = 0 := Nat.div_eq_of_lt (by omega)
  rw [ticksUntil, count]
  rfl

/-- The TICKs before an edge keep what single TICKs keep, and the next one is the first that can see the edge. -/
theorem ticksUntil_edge {P : State → Prop} {edge : Nat} (advances : 0 < gap) (ends : edge + gap ≤ stop)
    (keep : ∀ u, P u → u.time.tLast + gap < edge → P (nextTick wave gap u)) (s : State) (start : P s)
    (before : s.time.tLast < edge) :
    ∃ u, P u ∧ u.time.tLast < edge ∧ edge ≤ u.time.tLast + gap ∧
      ticksUntil wave gap stop s = ticksUntil wave gap stop (nextTick wave gap u) := by
  have step := ticksUntil_of_lt (wave := wave) (s := s) (stop := stop) advances (by omega)
  by_cases more : s.time.tLast + gap < edge
  · have time : (nextTick wave gap s).time.tLast = s.time.tLast + gap := tickAt_tLast ..
    obtain ⟨u, hu, early, meets, rest⟩ :=
      ticksUntil_edge advances ends keep (nextTick wave gap s) (keep s start more) (by omega)
    exact ⟨u, hu, early, meets, step.trans rest⟩
  · exact ⟨s, start, before, not_lt.mp more, step⟩
termination_by edge - s.time.tLast
decreasing_by omega

/-! ### A core at rest -/

/-- Given `level`, the core only lets time pass before `stop`. -/
def Rests (level : Bool) (stop : Nat) (s : State) : Prop :=
  ∀ now, s.time.tLast < now → now < stop → tickAt now level s = waited now s

/-- What the line reads before `edge`: the level the others leave and this core's drive. -/
def Reads (wave : Nat → Bool) (level : Bool) (edge : Nat) (s : State) : Prop :=
  ∀ now, s.time.tLast < now → now < edge → (wave now && !s.line.driveLow) = level

/-- One TICK of a core at rest. -/
theorem nextTick_of_rests {level : Bool} {edge t : Nat} {s : State} (rests : Rests level edge s)
    (reads : Reads wave level edge s) (later : s.time.tLast ≤ t) (advances : 0 < gap) (early : t + gap < edge) :
    nextTick wave gap (waited t s) = waited (t + gap) s := by
  have level := reads (t + gap) (by omega) early
  unfold nextTick
  rw [tickAt_waited]
  exact (congrArg (tickAt (t + gap) · s) level).trans (rests (t + gap) (by omega) early)

/-- A core at rest until an edge meets it at one TICK, less than one gap late. -/
theorem ticksUntil_edge_of_rests {level : Bool} {edge : Nat} {s : State} (advances : 0 < gap) (ends : edge + gap ≤ stop)
    (before : s.time.tLast < edge) (rests : Rests level edge s) (reads : Reads wave level edge s) :
    ∃ now, s.time.tLast < now ∧ edge ≤ now ∧ now < edge + gap ∧
      ticksUntil wave gap stop s = ticksUntil wave gap stop (tickAt now (wave now && !s.line.driveLow) s) := by
  obtain ⟨u, ⟨t, later, rfl⟩, early, meets, run⟩ :=
    ticksUntil_edge (wave := wave) (P := fun u => ∃ t, s.time.tLast ≤ t ∧ u = waited t s) advances ends
      (by
        rintro u ⟨t, later, rfl⟩ early
        exact ⟨t + gap, by omega, nextTick_of_rests rests reads later advances early⟩)
      s ⟨_, le_rfl, rfl⟩ before
  dsimp only [waited_time] at early meets
  refine ⟨t + gap, by omega, meets, by omega, run.trans ?_⟩
  unfold nextTick
  rw [tickAt_waited]
  rfl

/-- A core at rest to the end only lets time pass. -/
theorem ticksUntil_of_rests {level : Bool} {s : State} (advances : 0 < gap) (rests : Rests level stop s)
    (reads : Reads wave level stop s) : ∃ t, ticksUntil wave gap stop s = waited t s := by
  have passes (t : Nat) (later : s.time.tLast ≤ t) : ∃ t', ticksUntil wave gap stop (waited t s) = waited t' s := by
    induction h : stop - t using Nat.strong_induction_on generalizing t with
    | _ n ih =>
      by_cases more : t + gap < stop
      · obtain ⟨t', rest⟩ := ih (stop - (t + gap)) (by omega) (t + gap) (by omega) rfl
        rw [ticksUntil_of_lt advances more, nextTick_of_rests rests reads later advances more]
        exact ⟨t', rest⟩
      · exact ⟨t, ticksUntil_of_le (not_lt.mp more) advances⟩
  exact passes s.time.tLast le_rfl

/-- Where a TICK's step only samples, and the level is the one last read or cannot be read, the core rests. -/
theorem rests_of_sampled {level : Bool} {s : State} (silent : s.response = none)
    (still : ∀ now, s.time.tLast < now → now < stop → ValidRead now s → level = s.line.lastLine)
    (only : ∀ now, s.time.tLast < now → now < stop →
      exec (.tick now level) s = .next (sampled now level s)) : Rests level stop s := by
  intro now later early
  rw [tickAt_of_exec silent (only now later early), sampled_still (still now later early), List.append_nil, ← silent]
  rfl

end

/-! ### One symbol -/

section
variable {low period fall now : Nat}

/-- Before the symbol the others leave the line HIGH. -/
theorem pulse_before (h : now < fall) : levelAt [⟨low, period⟩] fall now = true := levelAt_of_lt _ h

/-- Through its low time the line is LOW. -/
theorem pulse_low (fits : low ≤ period) (begun : fall ≤ now) (going : now < fall + low) :
    levelAt [⟨low, period⟩] fall now = false := by
  obtain ⟨d, rfl⟩ := Nat.exists_eq_add_of_le begun
  rw [levelAt_add, levelAfter_cons_inside (p := ⟨low, period⟩) (show d < period by omega)]
  exact decide_eq_false (show ¬ low ≤ d by omega)

/-- After its low time the line is HIGH to the end of its period. -/
theorem pulse_high (begun : fall + low ≤ now) (going : now < fall + period) :
    levelAt [⟨low, period⟩] fall now = true := by
  obtain ⟨d, rfl⟩ := Nat.exists_eq_add_of_le (Nat.le_of_add_right_le begun)
  rw [levelAt_add, levelAfter_cons_inside (p := ⟨low, period⟩) (show d < period by omega)]
  exact decide_eq_true (show low ≤ d by omega)

end

end Sys2Proof.Machine
end

section
/-! SUPPORT. The symbols a receiver meets (`30_encoding.md` R110): where it waits for an edge it rests until the edge comes or
is late, and at the edge it does what the handler's statement says. A START symbol and a data bit are then a fall, a rise
and a rest. -/

namespace Sys2Proof.Machine

/-! ### Legal states along a symbol -/

/-- A state stays legal while the session and the pending transmission stand, if its sequencer and drive are legal. -/
theorem Legal.of_registers {s t : State} (h : Legal s) (seq : SeqOk t.seq)
    (codes : (t.seq.st ≠ .code6 ∧ t.seq.st ≠ .code7) ∧ t.seq.ph ≠ .code3 ∧ t.seq.role ≠ .code3) (drive : DriveOk t)
    (params : t.params = s.params := by rfl) (cfg : t.cfg = s.cfg := by rfl)
    (session : t.session = s.session := by rfl)
    (tx : ∃ post, t.tx = { s.tx with postSuccess := post } := by exact ⟨_, rfl⟩) : Legal t := by
  obtain ⟨code, -, -, pending, link⟩ := legal_iff.mp h
  obtain ⟨-, -, -, outcome⟩ := codesOk_iff.mp code
  obtain ⟨st, ph, role⟩ := codes
  obtain ⟨post, tx⟩ := tx
  refine legal_iff.mpr ⟨codesOk_iff.mpr ⟨st, ph, role, by rwa [tx]⟩, seq, drive, ?_, ?_⟩
  · rw [params, PendingOk, tx, params]
    exact pending
  · rw [SessionOk, tx, session, params, cfg]
    exact link

/-- A receiver at work: its place in R172's table. -/
structure Receives (q : SeqRegs) : Prop where
  st : q.st = .awaitStart ∨ q.st = .bitPeriod ∨ q.st = .ackWindow := by simp
  role : q.role = .rx := by simp
  ph : q.ph = .driveLowEdge ∨ q.ph = .fullBitWait := by simp

/-- A receiver with the line released is legal. -/
theorem Legal.of_receives {s t : State} (h : Legal s) (place : Receives t.seq) (released : t.line.driveLow = false)
    (params : t.params = s.params := by rfl) (cfg : t.cfg = s.cfg := by rfl)
    (session : t.session = s.session := by rfl)
    (tx : ∃ post, t.tx = { s.tx with postSuccess := post } := by exact ⟨_, rfl⟩) : Legal t := by
  obtain ⟨st, role, ph⟩ := place
  refine h.of_registers ?_ ?_ (by simp [DriveOk, released]) params cfg session tx
  · rcases st with st | st | st <;> simp [SeqOk, st, role]
  · rcases st with st | st | st <;> rcases ph with ph | ph <;> simp [st, role, ph]

/-! ### Edges and rests -/

/-- After the fall at `now` that brings the sequencer to `q`. -/
def fallen (now : Nat) (q : SeqRegs) (s : State) : State :=
  { s with
    seq := q, line := { s.line with lastLine := false }, time := { s.time with tFall := now, tLast := now }
    events := [], response := none }

/-- After the rise at `now` that brings the sequencer to `q`. -/
def risen (now : Nat) (q : SeqRegs) (s : State) : State :=
  { s with
    seq := q, line := { s.line with lastLine := true }, time := { s.time with tFree := now, tLast := now }
    events := [], response := none }

/-- A HIGH level is no fall. -/
theorem not_fallSeen_high (now : Nat) (s : State) : ¬ FallSeen now true s := fun ⟨_, _, low⟩ => by cases low

/-- A LOW level is no rise. -/
theorem not_riseSeen_low (now : Nat) (s : State) : ¬ RiseSeen now false s := fun ⟨_, _, high⟩ => by cases high

/-- With no edge, and not too late for one, a receiver's TICK falls through to its last branch. -/
theorem ite_waits {α : Type} {edge band late : Prop} [Decidable edge] [Decidable band] [Decidable late]
    (quiet : ¬ edge) (inTime : ¬ late) (go abort wait : α) :
    (if edge ∧ band then go else if edge ∨ late then abort else wait) = wait := by
  rw [if_neg (mt And.left quiet), if_neg (not_or.mpr ⟨quiet, inTime⟩)]

/-- Before the end of a band it is not too late. -/
theorem not_late {now limit : Nat} {s : State} (h : now < s.time.tFall + limit + 1) : ¬ elapsed now s > limit := by
  unfold elapsed; omega

theorem Rests.mono {level : Bool} {stop stop' : Nat} {s : State} (h : Rests level stop s) (le : stop' ≤ stop) :
    Rests level stop' s := fun now later early => h now later (early.trans_le le)

/-- A step's TICK with no event before it is the run's. -/
theorem tickAt_of_exec_silent {now : Nat} {lineIn : Bool} {s t : State} (noEvents : s.events = [])
    (noResponse : s.response = none) (h : exec (.tick now lineIn) s = .next t) : tickAt now lineIn s = t := by
  rw [tickAt_of_exec noResponse h, noEvents]
  rfl

/-- A receiver waits for the rise of a start bit through its low band (R175). -/
theorem awaitLow_rests {s : State} (legal : Legal s) (silent : s.response = none) (st : s.seq.st = .awaitStart)
    (ph : s.seq.ph = .driveLowEdge) (low : s.line.lastLine = false) :
    Rests false (s.time.tFall + s.params.startLowMax + 1) s := by
  refine rests_of_sampled silent (fun _ _ _ _ => low.symm) fun now later early => ?_
  obtain ⟨tick, -⟩ := startBitIsTimed now false s later legal st
  rw [tick ph, ite_waits (not_riseSeen_low now s) (not_late early)]

/-- A receiver waits for the end of a start bit through its period band (R176). -/
theorem awaitTotal_rests {s : State} (legal : Legal s) (silent : s.response = none) (st : s.seq.st = .awaitStart)
    (ph : s.seq.ph = .fullBitWait) (high : s.line.lastLine = true) :
    Rests true (s.time.tFall + s.params.startTotalMax + 1) s := by
  refine rests_of_sampled silent (fun _ _ _ _ => high.symm) fun now later early => ?_
  obtain ⟨-, tick⟩ := startBitIsTimed now true s later legal st
  rw [tick ph, ite_waits (not_fallSeen_high now s) (not_late early)]

/-- A receiver waits for the rise of a bit up to `ZERO_LOW_MAX` (R187). -/
theorem rxBitLow_rests {s : State} (legal : Legal s) (silent : s.response = none) (st : s.seq.st = .bitPeriod)
    (role : s.seq.role = .rx) (ph : s.seq.ph = .driveLowEdge) (low : s.line.lastLine = false) :
    Rests false (s.time.tFall + s.params.zeroLowMax + 1) s := by
  refine rests_of_sampled silent (fun _ _ _ _ => low.symm) fun now later early => ?_
  rw [receivedBitIsDecoded now false s later legal st role ph, ite_waits (not_riseSeen_low now s) (not_late early)]

/-- A receiver waits for the next falling edge of a block up to `BIT_MAX` (R188). -/
theorem rxBitEnd_rests {s : State} (legal : Legal s) (silent : s.response = none) (st : s.seq.st = .bitPeriod)
    (role : s.seq.role = .rx) (ph : s.seq.ph = .fullBitWait) (high : s.line.lastLine = true) :
    Rests true (s.time.tFall + s.params.bitMax + 1) s := by
  refine rests_of_sampled silent (fun _ _ _ _ => high.symm) fun now later early => ?_
  rw [receivedBitEndsAndAcks now true s later legal st role ph, ite_waits (not_fallSeen_high now s) (not_late early)]

/-- A receiver waits for the first falling edge of the next block up to `BIT_MAX` (R190). -/
theorem rxAckEnd_rests {s : State} (legal : Legal s) (silent : s.response = none) (st : s.seq.st = .ackWindow)
    (role : s.seq.role = .rx) (ph : s.seq.ph = .fullBitWait) (high : s.line.lastLine = true) :
    Rests true (s.time.tFall + s.params.bitMax + 1) s := by
  refine rests_of_sampled silent (fun _ _ _ _ => high.symm) fun now later early => ?_
  rw [receivedBlockFollows now true s later legal st role ph, ite_waits (not_fallSeen_high now s) (not_late early)]

/-- Just before a symbol, with nothing on the ports: the line is released, last read HIGH, and settled. -/
structure Poised (s : State) : Prop where
  released : s.line.driveLow = false
  high : s.line.lastLine = true
  settled : s.line.tDrive + s.params.tSettle ≤ s.time.tLast
  noEvents : s.events = []
  noResponse : s.response = none

theorem poised_clearPorts {sch : Sched} {s : State} (h : LineQuiet sch s) : Poised (clearPorts s) := by
  obtain ⟨released, high, settled, -, -⟩ := h
  exact ⟨released, high, settled, rfl, rfl⟩

/-- Then a LOW level is a fall. -/
theorem Poised.fallSeen {s : State} (h : Poised s) {now : Nat} (later : s.time.tLast < now) : FallSeen now false s := by
  obtain ⟨-, high, settled, -, -⟩ := h
  exact ⟨by unfold ValidRead; omega, high, rfl⟩

/-- Just after a fall that the core has met with the line released. -/
structure JustFell (s : State) : Prop where
  tFall : s.time.tFall = s.time.tLast
  released : s.line.driveLow = false
  low : s.line.lastLine = false
  settled : s.line.tDrive + s.params.tSettle ≤ s.time.tLast
  noEvents : s.events = []
  noResponse : s.response = none

theorem Poised.justFell {s t : State} (h : Poised s) {now : Nat} (later : s.time.tLast < now) (q : SeqRegs)
    (line : t.line = s.line := by rfl) (params : t.params = s.params := by rfl) : JustFell (fallen now q t) where
  tFall := rfl
  released := (congrArg LineRegs.driveLow line).trans h.released
  low := rfl
  settled := by
    have := h.settled
    dsimp only [fallen]
    rw [line, params]
    omega
  noEvents := rfl
  noResponse := rfl

/-- Then a HIGH level is a rise. -/
theorem JustFell.riseSeen {s : State} (h : JustFell s) {now : Nat} (later : s.time.tLast < now) :
    RiseSeen now true s := by
  have := h.settled
  exact ⟨by unfold ValidRead; omega, h.low, rfl⟩

/-- The timestamps at a TICK that sees no rise. -/
theorem sampledTime_of_not_rise {now : Nat} {lineIn : Bool} {s : State} (h : ¬ RiseSeen now lineIn s) :
    sampledTime now lineIn s = { s.time with tLast := now } := by
  rw [sampledTime, if_neg h]

/-! ### A fall, a rise and a rest -/

section
variable {fall low period gap : Nat} {s : State}

/-- A core at rest on a HIGH line meets the fall. -/
theorem ticksUntil_fall (advances : 0 < gap) (seen : gap ≤ low) (fits : low + gap ≤ period) (poised : Poised s)
    (before : s.time.tLast < fall) (rests : Rests true fall s) :
    ∃ now, s.time.tLast < now ∧ fall ≤ now ∧ now < fall + gap ∧
      ticksUntil (levelAt [⟨low, period⟩] fall) gap (fall + period) s =
        ticksUntil (levelAt [⟨low, period⟩] fall) gap (fall + period) (tickAt now false s) := by
  have reads : Reads (levelAt [⟨low, period⟩] fall) true fall s := fun now _ early => by
    rw [pulse_before early, poised.released]; rfl
  obtain ⟨now, later, begun, early, run⟩ :=
    ticksUntil_edge_of_rests advances (by omega : fall + gap ≤ fall + period) before rests reads
  rw [pulse_low (by omega) begun (by omega), Bool.false_and] at run
  exact ⟨now, later, begun, early, run⟩

/-- A core that has just met the fall and rests on the LOW line meets the rise, and rests to the end of the period. -/
theorem ticksUntil_rise {after : Nat → State} (advances : 0 < gap) (seen : gap ≤ low) (fits : low + gap ≤ period)
    (fell : JustFell s) (begun : fall ≤ s.time.tLast) (prompt : s.time.tLast < fall + gap)
    (rests : Rests false (fall + low) s)
    (rise : ∀ now, s.time.tLast < now → fall + low ≤ now → now < fall + low + gap → tickAt now true s = after now ∧
      (after now).line.driveLow = false ∧ Rests true (fall + period) (after now)) :
    ∃ now t, fall + low ≤ now ∧ now < fall + low + gap ∧
      ticksUntil (levelAt [⟨low, period⟩] fall) gap (fall + period) s = waited t (after now) := by
  have reads : Reads (levelAt [⟨low, period⟩] fall) false (fall + low) s := fun now later early => by
    rw [pulse_low (by omega) (by omega) early]; rfl
  obtain ⟨now, later, risen, early, run⟩ :=
    ticksUntil_edge_of_rests advances (by omega : fall + low + gap ≤ fall + period) (by omega) rests reads
  obtain ⟨tick, still, rest⟩ := rise now later risen early
  have time : (after now).time.tLast = now := by rw [← tick, tickAt_tLast]
  rw [pulse_high risen (by omega), fell.released, Bool.not_false, Bool.and_true, tick] at run
  have reads' : Reads (levelAt [⟨low, period⟩] fall) true (fall + period) (after now) := fun now' later' early' => by
    rw [pulse_high (by omega) early', still]; rfl
  obtain ⟨t, rest⟩ := ticksUntil_of_rests advances rest reads'
  exact ⟨now, t, risen, early, run.trans rest⟩

end

/-! ### The START symbol -/

/-- `s` at `t` on the idle bus, where the gap after a frame may have ended. -/
def listening (s : State) (t : Nat) (st : EngineState) (role : Role) : State :=
  { waited t s with seq := { s.seq with st := st, role := role } }

/-- What the TICKs on an idle bus make of `s`. -/
inductive Listens (s : State) : State → Prop where
  | intro {t : Nat} {st : EngineState} {role : Role} (later : s.time.tLast ≤ t) (place : st = .idle ∨ st = .interframeGap)
      (legal : Legal (listening s t st role)) : Listens s (listening s t st role)

/-- With nothing pending a HIGH line leaves the core on the idle bus (R173, R174). -/
theorem Listens.tick {s u : State} (h : Listens s u) (poised : Poised s) (noInit : NoInitDue s)
    (free : s.tx.pending = false) {now : Nat} (later : u.time.tLast < now) : Listens s (tickAt now true u) := by
  obtain ⟨released, high, -, noEvents, noResponse⟩ := poised
  cases h with
  | @intro t st role since place legal =>
    have still : sampled now true (listening s t st role) = listening s now st role := by
      rw [sampled_still (s := listening s t st role) fun _ => high.symm, ← noEvents, ← noResponse]
      rfl
    have noFall := not_fallSeen_high now (listening s t st role)
    have latest : s.time.tLast ≤ now := since.trans (le_of_lt later)
    rcases place with rfl | rfl
    · have tick := idleYieldsTimesOutOrStarts now true _ later legal noInit rfl
      have notPending : ¬ (listening s t .idle role).tx.pending = true := by
        rw [Bool.not_eq_true]; exact free
      rw [idleNext, if_neg noFall, if_neg (mt And.left notPending), if_neg (mt And.left notPending), still] at tick
      rw [tickAt_of_exec_silent (s := listening s t .idle role) noEvents noResponse tick]
      exact .intro latest (.inl rfl) legal
    · have tick := gapEndsOrYields now true _ later legal noInit rfl
      rw [if_neg noFall, still] at tick
      rw [tickAt_of_exec_silent (s := listening s t .interframeGap role) noEvents noResponse tick]
      split_ifs
      · obtain ⟨code, -⟩ := legal_iff.mp legal
        obtain ⟨-, ph, -⟩ := codesOk_iff.mp code
        exact .intro (st := .idle) (role := .none) latest (.inl rfl) (legal.of_registers (by simp [SeqOk, listening])
          ⟨by simp [listening], ph, by simp [listening]⟩ (by simp [DriveOk, listening, released]))
      · exact .intro latest (.inr rfl) legal

/-- After the fall at `now` that begins a start bit (R173, R174). -/
def startMet (now : Nat) (s : State) : State :=
  fallen now { s.seq with st := .awaitStart, role := .rx, ph := .driveLowEdge }
    { s with tx := { s.tx with postSuccess := false } }

/-- A fall on the idle bus, in IDLE as in the gap (R173, R174; D45). -/
theorem exec_fall_on_idle_bus {now : Nat} {s : State} (later : s.time.tLast < now) (legal : Legal s)
    (noInit : NoInitDue s) (place : s.seq.st = .idle ∨ s.seq.st = .interframeGap) (fall : FallSeen now false s) :
    exec (.tick now false) s = .next (startMet now s) := by
  rcases place with st | st
  · rw [idleYieldsTimesOutOrStarts now false s later legal noInit st, idleNext, if_pos fall, sampled_fall fall.left,
      sampledTime_of_not_rise (not_riseSeen_low now s)]
    rfl
  · rw [gapEndsOrYields now false s later legal noInit st, if_pos fall, sampled_fall fall.left,
      sampledTime_of_not_rise (not_riseSeen_low now s)]
    rfl

/-- The rise of a start bit inside its low band (R175). -/
theorem tickAt_start_rise {now : Nat} {s : State} (legal : Legal s) (st : s.seq.st = .awaitStart)
    (ph : s.seq.ph = .driveLowEdge) (fell : JustFell s) (later : s.time.tLast < now)
    (band : s.params.startLowMin ≤ elapsed now s ∧ elapsed now s ≤ s.params.startLowMax) :
    tickAt now true s = risen now { s.seq with ph := .fullBitWait } s := by
  obtain ⟨tick, -⟩ := startBitIsTimed now true s later legal st
  have rise := fell.riseSeen later
  rw [tickAt_of_exec_silent fell.noEvents fell.noResponse (tick ph), if_pos ⟨rise, band⟩, sampled_rise rise]
  rfl

/-- A start bit whose low time keeps one gap inside its band is timed, and its period is awaited to the end (R175, R176). -/
theorem ticksUntil_start_rise {fall low period gap : Nat} {s : State} (advances : 0 < gap) (seen : gap ≤ low)
    (fits : low + gap ≤ period) (legal : Legal s) (place : Receives s.seq) (st : s.seq.st = .awaitStart)
    (ph : s.seq.ph = .driveLowEdge) (fell : JustFell s) (begun : fall ≤ s.time.tLast)
    (prompt : s.time.tLast < fall + gap) (lowMin : s.params.startLowMin + gap ≤ low)
    (lowMax : low + gap ≤ s.params.startLowMax) (periodMax : period ≤ s.params.startTotalMax) :
    ∃ now t, fall + low ≤ now ∧ now < fall + low + gap ∧
      ticksUntil (levelAt [⟨low, period⟩] fall) gap (fall + period) s =
        waited t (risen now { s.seq with ph := .fullBitWait } s) := by
  have dated := fell.tFall
  have wait : Rests false (fall + low) s := (awaitLow_rests legal fell.noResponse st ph fell.low).mono (by omega)
  refine ticksUntil_rise advances seen fits fell begun prompt wait fun now later late early => ?_
  have legal' : Legal (risen now { s.seq with ph := .fullBitWait } s) :=
    legal.of_receives { st := place.st, role := place.role, ph := .inr rfl } fell.released
  refine ⟨tickAt_start_rise legal st ph fell later (by unfold elapsed; omega), fell.released, ?_⟩
  exact (awaitTotal_rests legal' rfl st rfl rfl).mono (by dsimp only [risen]; omega)

/-- On the idle bus the core meets the fall of a START: with nothing pending at any TICK, and at once where the first
TICK is already the fall's (`43_arbiter.md` R293). -/
theorem ticksUntil_start_fall {fall low period gap : Nat} {s : State} (advances : 0 < gap) (seen : gap ≤ low)
    (fits : low + gap ≤ period) (poised : Poised s) (legal : Legal s) (noInit : NoInitDue s)
    (place : s.seq.st = .idle ∨ s.seq.st = .interframeGap) (before : s.time.tLast < fall)
    (free : s.tx.pending = false ∨ fall ≤ s.time.tLast + gap) :
    ∃ now, s.time.tLast < now ∧ fall ≤ now ∧ now < fall + gap ∧
      ticksUntil (levelAt [⟨low, period⟩] fall) gap (fall + period) s =
        ticksUntil (levelAt [⟨low, period⟩] fall) gap (fall + period) (startMet now s) := by
  have keep (u : State) (h : Listens s u) (early : u.time.tLast + gap < fall) :
      Listens s (nextTick (levelAt [⟨low, period⟩] fall) gap u) := by
    have level : (levelAt [⟨low, period⟩] fall (u.time.tLast + gap) && !u.line.driveLow) = true := by
      cases h
      rw [pulse_before early]
      exact congrArg (fun d => true && !d) poised.released
    unfold nextTick
    rw [level]
    refine h.tick poised noInit (free.resolve_right fun soon => ?_) (Nat.lt_add_of_pos_right advances)
    cases h with
    | intro since => exact absurd early (by dsimp only [listening, waited_time]; omega)
  obtain ⟨u, listens, early, meets, run⟩ := ticksUntil_edge advances (by omega : fall + gap ≤ fall + period) keep s
    (.intro (st := s.seq.st) (role := s.seq.role) le_rfl place legal) before
  cases listens with
  | @intro t st role since place legal =>
    dsimp only [listening, waited_time] at early meets
    have later : (listening s t st role).time.tLast < t + gap := Nat.lt_add_of_pos_right advances
    have fallSeen : FallSeen (t + gap) false (listening s t st role) := poised.fallSeen (by omega)
    have tick := exec_fall_on_idle_bus later legal noInit place fallSeen
    refine ⟨t + gap, by omega, meets, by omega, run.trans ?_⟩
    have low : levelAt [⟨low, period⟩] fall (t + gap) = false := pulse_low (by omega) meets (by omega)
    have met : nextTick (levelAt [⟨_, period⟩] fall) gap (listening s t st role) = tickAt (t + gap) false _ :=
      congrArg (fun l => tickAt (t + gap) (l && _) (listening s t st role)) low
    rw [met, tickAt_of_exec_silent (s := listening s t st role) poised.noEvents poised.noResponse tick]
    rfl

/-- Settles O55: the fall is met on the idle bus, the rise inside the low band, and the rest of the symbol is too short for
the period band to end. -/
theorem startSymbolIsReceived : Obligations.StartSymbolIsReceived := by
  intro sch low period s legal noInit quiet place free lowMin seen lowMax fits periodMax
  have poised := poised_clearPorts quiet
  obtain ⟨-, high, -, advances, before⟩ := quiet
  obtain ⟨fell, later, begun, prompt, toFall⟩ :=
    ticksUntil_start_fall (s := clearPorts s) advances seen fits poised legal noInit place before free
  have receives : Receives (startMet fell (clearPorts s)).seq := { st := .inl rfl, role := rfl, ph := .inl rfl }
  have justFell : JustFell (startMet fell (clearPorts s)) := poised.justFell later _
  have legal' : Legal (startMet fell (clearPorts s)) := legal.of_receives receives poised.released
  obtain ⟨rose, t, late, soon, toEnd⟩ := ticksUntil_start_rise advances seen fits legal' receives rfl rfl justFell begun
    prompt lowMin lowMax periodMax
  refine ⟨_, congrArg Host.Outcome.next ((onWire_eq_ticksUntil ..).trans (toFall.trans toEnd)), rfl, begun, prompt, late,
    soon, rfl, rfl, ?_, rfl, rfl, rfl, rfl, rfl, rfl⟩
  exact congrArg (LineRegs.mk _ _) high.symm

end Sys2Proof.Machine
end

section
/-! SUPPORT. A data or EOM bit as a receiver meets it (`41_bit_timing.md` R176, R186 to R188, R190): wherever it waits for the
bit's fall, the fall leads into the bit, the rise decodes it, and the rest of the period is awaited. -/

namespace Sys2Proof.Machine

/-! ### Waiting for a bit -/

section
variable {s : State} {lo hi : Nat} {q : SeqRegs} {r : RxRegs}

/-- The bit that comes is one of an open block. -/
theorem NextRxBit.place (h : NextRxBit s lo hi q r) :
    q.st = .bitPeriod ∧ q.role = .rx ∧ q.ph = .fullBitWait := by
  cases h <;> exact ⟨rfl, rfl, rfl⟩

/-- Where the receiver waits for a bit it stands in R172's table. -/
theorem NextRxBit.receives (h : NextRxBit s lo hi q r) (legal : Legal s) : Receives s.seq := by
  obtain ⟨-, ⟨-, -, awaits, -⟩, -⟩ := legal_iff.mp legal
  cases h with
  | afterStart st ph => exact ⟨.inl st, awaits st, .inr ph⟩
  | inBlock st role ph more => exact ⟨.inr (.inl st), role, .inr ph⟩
  | nextBlock st role ph => exact ⟨.inr (.inr st), role, .inr ph⟩

/-- The receiver waits for the bit's fall up to the end of the band. -/
theorem NextRxBit.rests (h : NextRxBit s lo hi q r) (legal : Legal s) (poised : Poised s) :
    Rests true (s.time.tFall + hi + 1) s := by
  obtain ⟨-, high, -, -, silent⟩ := poised
  cases h with
  | afterStart st ph => exact awaitTotal_rests legal silent st ph high
  | inBlock st role ph more => exact rxBitEnd_rests legal silent st role ph high
  | nextBlock st role ph => exact rxAckEnd_rests legal silent st role ph high

/-- A fall inside the band leads into the bit. -/
theorem NextRxBit.tickAt_fall (h : NextRxBit s lo hi q r) (legal : Legal s) (poised : Poised s) {now : Nat}
    (later : s.time.tLast < now) (band : lo ≤ elapsed now s ∧ elapsed now s ≤ hi) :
    tickAt now false s = fallen now { q with ph := .driveLowEdge } { s with rx := r } := by
  have fall := poised.fallSeen later
  have time := sampledTime_of_not_rise (not_riseSeen_low now s)
  have state := sampled_fall fall.left
  have receives := h.receives legal
  refine tickAt_of_exec_silent poised.noEvents poised.noResponse ?_
  cases h with
  | afterStart st ph =>
    obtain ⟨-, tick⟩ := startBitIsTimed now false s later legal st
    rw [tick ph, if_pos ⟨fall, band⟩, state, time, ← receives.role]
    rfl
  | inBlock st role ph more =>
    have notLast : ¬ s.seq.bitIdx = 8 := fun last => by rw [last] at more; exact absurd more (by decide)
    rw [receivedBitEndsAndAcks now false s later legal st role ph, if_pos ⟨fall, band⟩, if_neg notLast,
      if_neg (mt And.left notLast), sampledLine, if_pos fall.left, state, time, ← role]
    rfl
  | nextBlock st role ph =>
    rw [receivedBlockFollows now false s later legal st role ph, if_pos ⟨fall, band⟩, state, time]
    rfl

end

/-! ### Decoding a bit -/

/-- A low time in the band of `v` lies in a band, and in DATA1's exactly if `v` is 1 (R186; R9 keeps the bands apart). -/
theorem decoded_of_band {c : Config} {v : Bool} {low : Nat} (apart : c.oneLowMax < c.zeroLowMin)
    (lowMin : (if v then c.oneLowMin else c.zeroLowMin) ≤ low)
    (lowMax : low ≤ if v then c.oneLowMax else c.zeroLowMax) :
    ((c.oneLowMin ≤ low ∧ low ≤ c.oneLowMax) ∨ (c.zeroLowMin ≤ low ∧ low ≤ c.zeroLowMax)) ∧
      decide (c.oneLowMin ≤ low ∧ low ≤ c.oneLowMax) = v := by
  cases v with
  | true => exact ⟨.inl ⟨lowMin, lowMax⟩, decide_eq_true ⟨lowMin, lowMax⟩⟩
  | false =>
    have notOne : ¬ (c.oneLowMin ≤ low ∧ low ≤ c.oneLowMax) := fun ⟨_, one⟩ =>
      absurd (apart.trans_le lowMin) (not_lt.mpr one)
    exact ⟨.inr ⟨lowMin, lowMax⟩, decide_eq_false notOne⟩

/-- A rise in the band of `v` decodes `v` (R186, R187). -/
theorem tickAt_bit_rise {now : Nat} {s : State} (v : Bool) (legal : Legal s) (st : s.seq.st = .bitPeriod)
    (role : s.seq.role = .rx) (ph : s.seq.ph = .driveLowEdge) (fell : JustFell s) (later : s.time.tLast < now)
    (apart : s.params.oneLowMax < s.params.zeroLowMin)
    (lowMin : (if v then s.params.oneLowMin else s.params.zeroLowMin) ≤ elapsed now s)
    (lowMax : elapsed now s ≤ if v then s.params.oneLowMax else s.params.zeroLowMax) :
    tickAt now true s =
      risen now { s.seq with ph := .fullBitWait } { s with rx := decodedBit s.session s.seq v s.rx } := by
  have rise := fell.riseSeen later
  obtain ⟨band, one⟩ := decoded_of_band apart lowMin lowMax
  refine tickAt_of_exec_silent fell.noEvents fell.noResponse ?_
  rw [receivedBitIsDecoded now true s later legal st role ph, sampled_rise rise, if_pos ⟨rise, band⟩, one]
  rfl

/-- A bit whose low time keeps one gap inside its band is decoded, and the next edge is awaited to the end of its period
(R187, R188). -/
theorem ticksUntil_bit_rise {fall low period gap : Nat} {s : State} (v : Bool) (advances : 0 < gap) (seen : gap ≤ low)
    (fits : low + gap ≤ period) (legal : Legal s) (st : s.seq.st = .bitPeriod) (role : s.seq.role = .rx)
    (ph : s.seq.ph = .driveLowEdge) (fell : JustFell s) (begun : fall ≤ s.time.tLast)
    (prompt : s.time.tLast < fall + gap) (apart : s.params.oneLowMax < s.params.zeroLowMin)
    (ordered : s.params.oneLowMax ≤ s.params.zeroLowMax)
    (lowMin : (if v then s.params.oneLowMin else s.params.zeroLowMin) + gap ≤ low)
    (lowMax : low + gap ≤ if v then s.params.oneLowMax else s.params.zeroLowMax)
    (periodMax : period ≤ s.params.bitMax) :
    ∃ now t, fall + low ≤ now ∧ now < fall + low + gap ∧
      ticksUntil (levelAt [⟨low, period⟩] fall) gap (fall + period) s =
        waited t (risen now { s.seq with ph := .fullBitWait } { s with rx := decodedBit s.session s.seq v s.rx }) := by
  have dated := fell.tFall
  have bounded : low ≤ s.params.zeroLowMax := by cases v <;> simp at lowMax <;> omega
  have wait : Rests false (fall + low) s := (rxBitLow_rests legal fell.noResponse st role ph fell.low).mono (by omega)
  refine ticksUntil_rise advances seen fits fell begun prompt wait fun now later late early => ?_
  have legal' : Legal (risen now { s.seq with ph := .fullBitWait }
      { s with rx := decodedBit s.session s.seq v s.rx }) :=
    legal.of_receives { st := .inr (.inl st), role := role, ph := .inr rfl } fell.released
  refine ⟨tickAt_bit_rise v legal st role ph fell later apart (by unfold elapsed; omega) (by unfold elapsed; omega),
    fell.released, ?_⟩
  exact (rxBitEnd_rests legal' rfl st role rfl rfl).mono (by dsimp only [risen]; omega)

/-- The rows of one bit put that bit's pulse on the line (R110, R114). -/
theorem BitRow.wireWave_eq {c : Config} {v : Bool} {sch : Sched} {i : Instr} {low period : Nat}
    (h : BitRow c v sch i low period) : wireWave c i = some (sch, [⟨low, period⟩]) := by
  cases h <;> rfl

/-- The registers a receiver waits with do not depend on the ports. -/
theorem NextRxBit.clearPorts {s : State} {lo hi : Nat} {q : SeqRegs} {r : RxRegs} (h : NextRxBit s lo hi q r) :
    NextRxBit (clearPorts s) lo hi q r := by
  cases h with
  | afterStart st ph => exact .afterStart st ph
  | inBlock st role ph more => exact .inBlock (s := Machine.clearPorts s) st role ph more
  | nextBlock st role ph => exact .nextBlock (s := Machine.clearPorts s) st role ph

/-- Settles O56: the fall leads into the bit from each place a receiver waits at, and the rise decodes it. -/
theorem dataSymbolIsReceived : Obligations.DataSymbolIsReceived := by
  intro v i sch low period lo hi q r s legal quiet next row apart ordered fallMin fallMax lowMin seen lowMax fits
    periodMax
  have poised := poised_clearPorts quiet
  have next := next.clearPorts
  obtain ⟨-, high, -, advances, before⟩ := quiet
  have wait : Rests true sch.fall (clearPorts s) := (next.rests legal poised).mono (by
    dsimp only [clearPorts_time]; omega)
  obtain ⟨now, later, begun, prompt, toFall⟩ := ticksUntil_fall advances seen fits poised before wait
  rw [next.tickAt_fall legal poised later (by dsimp only [elapsed, clearPorts_time]; omega)] at toFall
  obtain ⟨st, role, ph⟩ := next.place
  have fell : JustFell (fallen now { q with ph := .driveLowEdge } { clearPorts s with rx := r }) :=
    poised.justFell later _
  have legal' : Legal (fallen now { q with ph := .driveLowEdge } { clearPorts s with rx := r }) :=
    legal.of_receives { st := .inr (.inl st), role := role, ph := .inl rfl } poised.released
  obtain ⟨rose, t, -, -, toEnd⟩ := ticksUntil_bit_rise v advances seen fits legal' st role rfl fell begun prompt apart
    ordered lowMin lowMax periodMax
  refine ⟨_, (exec_of_wireWave row.wireWave_eq).trans
    (congrArg Host.Outcome.next ((onWire_eq_ticksUntil ..).trans (toFall.trans toEnd))), ?_, rfl, begun, prompt, rfl, rfl,
    ?_, rfl, rfl, rfl, rfl, rfl⟩
  · exact congrArg (fun ph => SeqRegs.mk q.st ph q.role q.bitIdx q.blk) ph.symm
  · exact congrArg (LineRegs.mk _ _) high.symm

end Sys2Proof.Machine
end

section
/-! SUPPORT. The ACK slot as a receiver meets it (`41_bit_timing.md` R188, R189, R197): the fall opens the slot, with this
core's own pulse where it acknowledges; the rise, its own release or the others', is decoded and decides the frame; and
whatever the frame has become, the rest of the period changes nothing. -/

namespace Sys2Proof.Machine

/-! ### The slot decided -/

/-- The ack a slot's level `v` means under the frame's header (R115, R257). -/
def slotAck (r : RxRegs) (v : Bool) : Bool := if headerDst (rxHeader r) = 15 then v else !v

/-- Where the sequencer goes once the slot's ack is recorded: the frame has ended, is abandoned or has overflowed, or
goes on (R189). -/
def slotSeq (s : State) (ack : Bool) : SeqRegs :=
  if s.rx.eom = true then { s.seq with st := .interframeGap }
  else if ack = false ∨ s.params.maxFrame ≤ s.seq.blk.toNat + 1 then { s.seq with st := .idle, role := .none }
  else { s.seq with ph := .fullBitWait }

/-- After the rise at `now` that decides an ACK slot (R189). -/
def slotEnd (now : Nat) (ack : Bool) (s : State) : State :=
  { risen now (slotSeq s ack) { s with rx := ackRecorded s.seq.blk ack s.rx } with
    events := if s.rx.eom = true then delivery s ack else [] }

/-- The four ends of a slot, in R189's order. -/
theorem slotEnd_eq (now : Nat) (ack : Bool) (s : State) :
    slotEnd now ack s =
      let s' := { s with rx := ackRecorded s.seq.blk ack s.rx }
      if s.rx.eom = true then
        { risen now { s.seq with st := .interframeGap } s' with events := delivery s ack }
      else if ack = false then risen now { s.seq with st := .idle, role := .none } s'
      else if s.seq.blk.toNat + 1 ≥ s.params.maxFrame then risen now { s.seq with st := .idle, role := .none } s'
      else risen now { s.seq with ph := .fullBitWait } s' := by
  unfold slotEnd slotSeq
  dsimp only
  by_cases eom : s.rx.eom = true
  · simp only [if_pos eom]
  · simp only [if_neg eom]
    by_cases nack : ack = false
    · rw [if_pos nack, if_pos (Or.inl nack)]
      rfl
    · rw [if_neg nack, if_congr (or_iff_right nack) rfl rfl, apply_ite (risen now · _)]
      split_ifs <;> rfl

/-- A receiver in the ACK slot before its rise. -/
structure InSlot (s : State) : Prop where
  legal : Legal s
  st : s.seq.st = .ackWindow := by rfl
  role : s.seq.role = .rx := by rfl
  ph : s.seq.ph = .driveLowEdge := by rfl
  low : s.line.lastLine = false := by rfl
  noEvents : s.events = [] := by rfl
  noResponse : s.response = none := by rfl

/-- A rise in the band of `v`, on a line this core has released, decides the slot (R186, R189). -/
theorem InSlot.tickAt_rise {now : Nat} {s : State} (h : InSlot s) (v : Bool) (released : s.line.driveLow = false)
    (later : s.time.tLast < now) (valid : ValidRead now s) (apart : s.params.oneLowMax < s.params.zeroLowMin)
    (lowMin : (if v then s.params.oneLowMin else s.params.zeroLowMin) ≤ elapsed now s)
    (lowMax : elapsed now s ≤ if v then s.params.oneLowMax else s.params.zeroLowMax) :
    tickAt now true s = slotEnd now (slotAck s.rx v) s := by
  obtain ⟨legal, st, role, ph, low, noEvents, noResponse⟩ := h
  have rise : RiseSeen now true s := ⟨valid, low, rfl⟩
  obtain ⟨band, one⟩ := decoded_of_band apart lowMin lowMax
  have silent : ¬ (s.line.driveLow = true ∧ elapsed now s ≥ s.params.tAckLow) := by simp [released]
  have aborted : abortedRx now true s =
      { sampled now true s with seq := { s.seq with st := .idle, role := .none } } := by
    rw [abortedRx, driven, if_pos (show false = (sampledLine now true s).driveLow from released.symm), ← ph]
    rfl
  have tick := receivedAckDecidesFrame now true s later legal st role ph
  dsimp only at tick
  rw [if_neg silent, if_pos ⟨rise, band⟩, one] at tick
  refine tickAt_of_exec_silent noEvents noResponse (tick.trans (congrArg Host.Outcome.next ?_))
  rw [aborted, sampled_rise rise, slotEnd_eq]
  rfl

/-! ### Waiting in the slot and after it -/

/-- In the slot the core waits while nothing new can be read, and its pulse, or the band of a 0, has not ended. -/
theorem InSlot.rests {level : Bool} {stop : Nat} {s : State} (h : InSlot s) (dated : s.time.tFall ≤ s.time.tLast)
    (still : ∀ now, s.time.tLast < now → now < stop → ValidRead now s → level = false)
    (inTime : (s.line.driveLow = true ∧ stop ≤ s.time.tFall + s.params.tAckLow) ∨
      (s.line.driveLow = false ∧ stop ≤ s.time.tFall + s.params.zeroLowMax + 1)) : Rests level stop s := by
  obtain ⟨legal, st, role, ph, low, -, noResponse⟩ := h
  refine rests_of_sampled noResponse (fun now later early valid => (still now later early valid).trans low.symm)
    fun now later early => ?_
  have noRise : ¬ RiseSeen now level s := fun ⟨valid, _, high⟩ => by
    rw [still now later early valid] at high; cases high
  have tick := receivedAckDecidesFrame now level s later legal st role ph
  dsimp only at tick
  rcases inTime with ⟨driving, inTime⟩ | ⟨released, inTime⟩
  · have notLate : ¬ elapsed now s ≥ s.params.tAckLow := by unfold elapsed; omega
    rw [tick, if_neg (mt And.right notLate), ite_waits noRise (by simp [driving])]
  · rw [tick, if_neg (by simp [released]), ite_waits noRise (mt And.right (not_late (early.trans_le inTime)))]

/-- On the idle bus with nothing pending a HIGH line changes nothing (R173). -/
theorem idle_rests {s : State} (legal : Legal s) (silent : s.response = none) (noInit : NoInitDue s)
    (st : s.seq.st = .idle) (high : s.line.lastLine = true) (free : s.tx.pending = false) (stop : Nat) :
    Rests true stop s := by
  have notPending : ¬ s.tx.pending = true := by rw [Bool.not_eq_true]; exact free
  refine rests_of_sampled silent (fun _ _ _ _ => high.symm) fun now later early => ?_
  rw [idleYieldsTimesOutOrStarts now true s later legal noInit st, idleNext, if_neg (not_fallSeen_high now s),
    if_neg (mt And.left notPending), if_neg (mt And.left notPending)]

/-- The gap after a frame lasts a nominal bit period (R174). -/
theorem gap_rests {s : State} (legal : Legal s) (silent : s.response = none) (noInit : NoInitDue s)
    (st : s.seq.st = .interframeGap) (high : s.line.lastLine = true) (dated : s.time.tFall ≤ s.time.tLast) :
    Rests true (s.time.tFall + s.params.bitNom) s := by
  refine rests_of_sampled silent (fun _ _ _ _ => high.symm) fun now later early => ?_
  have notOver : ¬ elapsed now s ≥ s.params.bitNom := by unfold elapsed; omega
  rw [gapEndsOrYields now true s later legal noInit st, if_neg (not_fallSeen_high now s), if_neg notOver]

/-- Whatever the slot has decided, the rest of its period changes nothing, if a core back in IDLE has nothing to send. -/
theorem InSlot.slotEnd_rests {s : State} (h : InSlot s) (released : s.line.driveLow = false) (noInit : NoInitDue s)
    {ack : Bool} (free : s.tx.pending = true →
      s.rx.eom = true ∨ (ack = true ∧ s.seq.blk.toNat + 1 < s.params.maxFrame))
    (inTime : s.params.bitNom ≤ s.params.bitMax) {now : Nat} (dated : s.time.tFall ≤ now) :
    Rests true (s.time.tFall + s.params.bitNom) (slotEnd now ack s) := by
  obtain ⟨legal, st, role, ph, -, -, -⟩ := h
  have seq : (slotEnd now ack s).seq = slotSeq s ack := rfl
  have drive : DriveOk (slotEnd now ack s) := by simp [DriveOk, slotEnd, risen, released]
  by_cases eom : s.rx.eom = true
  · have goes : slotSeq s ack = { s.seq with st := .interframeGap } := if_pos eom
    have legal' : Legal (slotEnd now ack s) :=
      legal.of_registers (by simp [seq, goes, SeqOk, role]) (by simp [seq, goes, role, ph]) drive
    exact gap_rests legal' rfl noInit (by rw [seq, goes]) rfl dated
  by_cases ends : ack = false ∨ s.params.maxFrame ≤ s.seq.blk.toNat + 1
  · have goes : slotSeq s ack = { s.seq with st := .idle, role := .none } := (if_neg eom).trans (if_pos ends)
    have legal' : Legal (slotEnd now ack s) :=
      legal.of_registers (by simp [seq, goes, SeqOk]) (by simp [seq, goes, ph]) drive
    have nothing : s.tx.pending = false := by
      by_contra pending
      obtain ⟨acked, more⟩ := (free (Bool.not_eq_false _ ▸ pending)).resolve_left eom
      exact ends.elim (by simp [acked]) (not_le.mpr more)
    exact idle_rests legal' rfl noInit (by rw [seq, goes]) rfl nothing _
  · have goes : slotSeq s ack = { s.seq with ph := .fullBitWait } := (if_neg eom).trans (if_neg ends)
    have place : Receives (slotEnd now ack s).seq := by
      rw [seq, goes]
      exact ⟨.inr (.inr st), role, .inr rfl⟩
    have wait : Rests true (s.time.tFall + s.params.bitMax + 1) (slotEnd now ack s) :=
      rxAckEnd_rests (legal.of_receives place released) rfl (by rw [seq, goes]; exact st) place.role (by rw [seq, goes]) rfl
    exact wait.mono (by omega)

/-! ### The slot opened -/

/-- The sequencer in the ACK slot of block `blk` (R188). -/
def slotPlace (blk : BitVec 4) : SeqRegs := ⟨.ackWindow, .driveLowEdge, .rx, 9, blk⟩

/-- After the fall at `now` that opens an ACK slot: the core pulls LOW exactly when it acknowledges (R188). -/
def slotOpen (now : Nat) (s : State) : State :=
  { fallen now (slotPlace s.seq.blk) s with
    line := ⟨s.rx.ackMe, if s.rx.ackMe then now else s.line.tDrive, false⟩ }

/-- In a slot opened at `now`, with the line released since `tDrive`. -/
def slotReleased (now tDrive : Nat) (s : State) : State :=
  { fallen now (slotPlace s.seq.blk) s with line := ⟨false, tDrive, false⟩ }

/-- The fall after bit 8 opens the slot (R188). -/
theorem tickAt_slot_fall {now : Nat} {s : State} (legal : Legal s) (poised : Poised s) (st : s.seq.st = .bitPeriod)
    (role : s.seq.role = .rx) (ph : s.seq.ph = .fullBitWait) (last : s.seq.bitIdx = 8) (later : s.time.tLast < now)
    (band : s.params.bitMin ≤ elapsed now s ∧ elapsed now s ≤ s.params.bitMax) :
    tickAt now false s = slotOpen now s := by
  have fall := poised.fallSeen later
  have time := sampledTime_of_not_rise (not_riseSeen_low now s)
  refine tickAt_of_exec_silent poised.noEvents poised.noResponse ?_
  rw [receivedBitEndsAndAcks now false s later legal st role ph, if_pos ⟨fall, band⟩, sampled_fall fall.left, time,
    if_pos last, sampledLine, if_pos fall.left, slotOpen, slotPlace, ← role, driven_eq, poised.released, last]
  cases me : s.rx.ackMe <;> simp [fallen, poised.released]

/-- This core's pulse ends `T_ACK_LOW` after the fall it saw, with the line still LOW (R189). -/
theorem InSlot.tickAt_pulse_end {now : Nat} {s : State} (h : InSlot s) (driving : s.line.driveLow = true)
    (later : s.time.tLast < now) (ended : s.params.tAckLow ≤ elapsed now s) :
    tickAt now false s = { waited now s with line := ⟨false, now, false⟩ } := by
  obtain ⟨legal, st, role, ph, low, noEvents, noResponse⟩ := h
  have tick := receivedAckDecidesFrame now false s later legal st role ph
  dsimp only at tick
  rw [if_pos ⟨driving, ended⟩, sampledLine, sampled_still fun _ => low.symm, driven, if_neg (by simp [driving]), low,
    ite_self] at tick
  rw [tickAt_of_exec_silent noEvents noResponse tick, ← noEvents, ← noResponse]
  rfl

/-! ### The whole slot -/

section
variable {fall low period gap : Nat} {s : State}

/-- A slot in which this core stays silent: the others' rise decides it (R189). -/
theorem InSlot.ticksUntil_heard (h : InSlot s) (v : Bool) (fell : JustFell s) (advances : 0 < gap) (seen : gap ≤ low)
    (fits : low + gap ≤ period) (begun : fall ≤ s.time.tLast) (prompt : s.time.tLast < fall + gap)
    (apart : s.params.oneLowMax < s.params.zeroLowMin) (inTime : low ≤ s.params.zeroLowMax)
    (lowMin : (if v then s.params.oneLowMin else s.params.zeroLowMin) + gap ≤ low)
    (lowMax : low + gap ≤ if v then s.params.oneLowMax else s.params.zeroLowMax)
    (rest : ∀ now, s.time.tFall ≤ now → Rests true (fall + period) (slotEnd now (slotAck s.rx v) s)) :
    ∃ now t, ticksUntil (levelAt [⟨low, period⟩] fall) gap (fall + period) s =
      waited t (slotEnd now (slotAck s.rx v) s) := by
  have dated := fell.tFall
  have wait : Rests false (fall + low) s := h.rests dated.le (fun _ _ _ _ => rfl) (.inr ⟨fell.released, by omega⟩)
  obtain ⟨now, t, -, -, run⟩ := ticksUntil_rise (after := fun now => slotEnd now (slotAck s.rx v) s) advances seen fits
    fell begun prompt wait fun now later late early =>
      ⟨h.tickAt_rise v fell.released later (fell.riseSeen later).left apart (by unfold elapsed; omega)
        (by unfold elapsed; omega), fell.released, rest now (by omega)⟩
  exact ⟨now, t, run⟩

/-- Once this core has released the slot and the others have too, the first valid read is the rise, and decides a 0. -/
theorem InSlot.ticksUntil_released (h : InSlot s) (released : s.line.driveLow = false)
    (drove : s.line.tDrive = s.time.tLast) (advances : 0 < gap) (heard : fall + low ≤ s.time.tLast)
    (apart : s.params.oneLowMax < s.params.zeroLowMin)
    (lowMin : s.time.tFall + s.params.zeroLowMin ≤ s.time.tLast)
    (lowMax : s.time.tLast + s.params.tSettle + gap ≤ s.time.tFall + s.params.zeroLowMax)
    (fits : s.time.tLast + s.params.tSettle + 1 + gap ≤ fall + period)
    (rest : ∀ now, s.time.tFall ≤ now → Rests true (fall + period) (slotEnd now (slotAck s.rx false) s)) :
    ∃ now t, ticksUntil (levelAt [⟨low, period⟩] fall) gap (fall + period) s =
      waited t (slotEnd now (slotAck s.rx false) s) := by
  have settling : Rests true (max (s.time.tLast + 1) (s.time.tLast + s.params.tSettle)) s :=
    h.rests (by omega) (fun now later early valid => by unfold ValidRead at valid; omega) (.inr ⟨released, by omega⟩)
  have high (u : State) (still : u.line.driveLow = false) (since : s.time.tLast ≤ u.time.tLast) :
      Reads (levelAt [⟨low, period⟩] fall) true (fall + period) u := fun now later early => by
    rw [pulse_high (by omega) early, still]; rfl
  obtain ⟨now, later, settled, soon, run⟩ := ticksUntil_edge_of_rests advances
    (by omega : max (s.time.tLast + 1) (s.time.tLast + s.params.tSettle) + gap ≤ fall + period) (by omega) settling
    fun now later early => high s released le_rfl now later (by omega)
  have rise : tickAt now true s = slotEnd now (slotAck s.rx false) s :=
    h.tickAt_rise false released later (by unfold ValidRead; omega) apart
      (show s.params.zeroLowMin ≤ elapsed now s by unfold elapsed; omega)
      (show elapsed now s ≤ s.params.zeroLowMax by unfold elapsed; omega)
  rw [high s released le_rfl now later (by omega), rise] at run
  obtain ⟨t, passes⟩ := ticksUntil_of_rests advances (rest now (by omega)) (high _ released later.le)
  exact ⟨now, t, run.trans passes⟩

/-- A slot in which this core acknowledges: its own pulse outlasts the others' low time, and the slot is decided as a 0 at
the first valid read after its release (R189, R196). -/
theorem InSlot.ticksUntil_pulsed (h : InSlot s) (dated : s.time.tFall = s.time.tLast)
    (driving : s.line.driveLow = true) (advances : 0 < gap) (begun : fall ≤ s.time.tLast)
    (prompt : s.time.tLast < fall + gap) (heard : low ≤ s.params.tAckLow)
    (apart : s.params.oneLowMax < s.params.zeroLowMin) (lowMin : s.params.zeroLowMin + gap ≤ s.params.tAckLow)
    (lowMax : s.params.tAckLow + s.params.tSettle + 2 * gap ≤ s.params.zeroLowMax)
    (fits : s.params.tAckLow + s.params.tSettle + 3 * gap ≤ period)
    (rest : ∀ ended now, s.time.tFall ≤ now → Rests true (fall + period)
      (slotEnd now (slotAck s.rx false) { waited ended s with line := ⟨false, ended, false⟩ })) :
    ∃ ended now t, s.time.tFall + s.params.tAckLow ≤ ended ∧ ended < s.time.tFall + s.params.tAckLow + gap ∧
      ticksUntil (levelAt [⟨low, period⟩] fall) gap (fall + period) s =
        waited t (slotEnd now (slotAck s.rx false) { waited ended s with line := ⟨false, ended, false⟩ }) := by
  have pulse : Rests false (s.time.tFall + s.params.tAckLow) s :=
    h.rests dated.le (fun _ _ _ _ => rfl) (.inl ⟨driving, le_rfl⟩)
  have pulled : Reads (levelAt [⟨low, period⟩] fall) false (s.time.tFall + s.params.tAckLow) s := fun now _ _ => by
    rw [driving, Bool.not_true, Bool.and_false]
  obtain ⟨ended, later, due, soon, toEnd⟩ := ticksUntil_edge_of_rests advances
    (by omega : s.time.tFall + s.params.tAckLow + gap ≤ fall + period) (by omega) pulse pulled
  rw [driving, Bool.not_true, Bool.and_false, h.tickAt_pulse_end driving later (by unfold elapsed; omega)] at toEnd
  have legal : Legal { waited ended s with line := ⟨false, ended, false⟩ } :=
    h.legal.of_receives ⟨.inr (.inr h.st), h.role, .inl h.ph⟩ rfl
  have slot : InSlot { waited ended s with line := ⟨false, ended, false⟩ } :=
    { legal := legal, st := h.st, role := h.role, ph := h.ph, noEvents := h.noEvents, noResponse := h.noResponse }
  obtain ⟨now, t, run⟩ := slot.ticksUntil_released rfl rfl advances (fall := fall) (low := low) (period := period)
    (by dsimp only [waited_time]; omega) apart (by dsimp only [waited_time, waited_params]; omega)
    (by dsimp only [waited_time, waited_params]; omega) (by dsimp only [waited_time, waited_params]; omega) (rest ended)
  exact ⟨ended, now, t, due, soon, toEnd.trans run⟩

end

/-- A slot just opened is one with no rise yet. -/
theorem inSlot_slotOpen {now : Nat} {s : State} (legal : Legal s) : InSlot (slotOpen now s) where
  legal := legal.of_registers (by simp [SeqOk, slotOpen, fallen, slotPlace]) (by simp [slotOpen, fallen, slotPlace])
    (by simp [DriveOk, slotOpen, fallen, slotPlace])

/-- An open slot in which this core stays silent has the line released as before. -/
theorem slotOpen_of_silent {now : Nat} {s : State} (silent : s.rx.ackMe = false) :
    slotOpen now s = slotReleased now s.line.tDrive s := by
  rw [slotOpen, slotReleased, silent]
  rfl

/-- The slot's edges keep one gap inside their bands, and this core's own pulse ends inside the period (R196). -/
structure SlotTiming (c : Config) (gap : Nat) : Prop where
  oneMin : c.oneLowMin + gap ≤ c.oneLowNom
  oneSeen : gap ≤ c.oneLowNom
  oneMax : c.oneLowNom + gap ≤ c.oneLowMax
  apart : c.oneLowMax < c.zeroLowMin
  zeroMin : c.zeroLowMin + gap ≤ c.tAckLow
  zeroMax : c.tAckLow + c.tSettle + 2 * gap ≤ c.zeroLowMax
  fits : c.tAckLow + c.tSettle + 3 * gap ≤ c.bitNom

/-- Then the pulse the others leave is seen, ends with this core's pulse at the latest, and inside the period. -/
theorem SlotTiming.pulse {c : Config} {gap : Nat} (h : SlotTiming c gap) (a : Bool) :
    gap ≤ (ackPulse c a).low ∧ (ackPulse c a).low ≤ c.tAckLow ∧ (ackPulse c a).low + gap ≤ c.bitNom := by
  obtain ⟨oneMin, oneSeen, oneMax, apart, zeroMin, zeroMax, fits⟩ := h
  unfold ackPulse
  split_ifs <;> dsimp only <;> omega

/-- An opened slot is decided by the AND of the others' level and this core's own pulse, which ends `T_ACK_LOW` after the
fall it saw (R189, R197). -/
theorem ticksUntil_slotOpen {fall gap fell : Nat} {s : State} (a : Bool) (timing : SlotTiming s.params gap)
    (legal : Legal s) (poised : Poised s) (advances : 0 < gap) (later : s.time.tLast < fell) (begun : fall ≤ fell)
    (prompt : fell < fall + gap)
    (rest : ∀ tDrive ended now, fell ≤ now → Rests true (fall + s.params.bitNom)
      (slotEnd now (slotAck s.rx (a && !s.rx.ackMe)) (waited ended (slotReleased fell tDrive s)))) :
    ∃ tDrive rose t, (s.rx.ackMe = false → tDrive = s.line.tDrive) ∧
      (s.rx.ackMe = true → fall + s.params.tAckLow ≤ tDrive ∧ tDrive < fall + s.params.tAckLow + 2 * gap) ∧
      ticksUntil (levelAt [ackPulse s.params a] fall) gap (fall + s.params.bitNom) (slotOpen fell s) =
        waited t (slotEnd rose (slotAck s.rx (a && !s.rx.ackMe)) (slotReleased fell tDrive s)) := by
  have slot : InSlot (slotOpen fell s) := inSlot_slotOpen legal
  obtain ⟨seen, heard, ends⟩ := timing.pulse a
  obtain ⟨oneMin, -, oneMax, apart, zeroMin, zeroMax, fits⟩ := timing
  cases me : s.rx.ackMe with
  | true =>
    rw [me, Bool.not_true, Bool.and_false] at rest
    rw [Bool.not_true, Bool.and_false]
    obtain ⟨ended, rose, t, due, soon, run⟩ := slot.ticksUntil_pulsed rfl me advances begun prompt heard apart zeroMin
      zeroMax fits fun ended => rest ended ended
    have tFall : (slotOpen fell s).time.tFall = fell := rfl
    have tAckLow : (slotOpen fell s).params.tAckLow = s.params.tAckLow := rfl
    exact ⟨ended, rose, t, nofun, fun _ => by omega, run⟩
  | false =>
    rw [me, Bool.not_false, Bool.and_true] at rest
    rw [Bool.not_false, Bool.and_true]
    rw [slotOpen_of_silent me] at slot ⊢
    have settled : s.line.tDrive + s.params.tSettle ≤ fell := poised.settled.trans (le_of_lt later)
    obtain ⟨rose, t, run⟩ := slot.ticksUntil_heard a ⟨rfl, rfl, rfl, settled, rfl, rfl⟩ advances seen ends begun prompt
      apart (show (ackPulse s.params a).low ≤ s.params.zeroLowMax by omega) (by cases a; exacts [zeroMin, oneMin])
      (by cases a; exacts [show s.params.tAckLow + gap ≤ s.params.zeroLowMax by omega, oneMax])
      fun now => rest s.line.tDrive fell now
    exact ⟨s.line.tDrive, rose, t, fun _ => rfl, nofun, run⟩

/-- Settles O57: the fall opens the slot, the rise that ends this core's pulse or the others' low time decides it, and the
rest of the period changes nothing. -/
theorem ackSlotIsReceived : Obligations.AckSlotIsReceived := by
  intro a sch s
  dsimp only
  intro legal quiet noInit free st role ph last fallMin fallMax oneMin oneSeen oneMax apart zeroMin zeroMax fits bitMax
  have poised := poised_clearPorts quiet
  have timing : SlotTiming s.params sch.gap := ⟨oneMin, oneSeen, oneMax, apart, zeroMin, zeroMax, fits⟩
  obtain ⟨-, -, -, advances, before⟩ := quiet
  obtain ⟨seen, -, ends⟩ := timing.pulse a
  have wait : Rests true sch.fall (clearPorts s) :=
    (rxBitEnd_rests (s := clearPorts s) legal rfl st role ph poised.high).mono
      (by dsimp only [clearPorts_time, clearPorts_params]; omega)
  obtain ⟨fell, later, begun, prompt, toFall⟩ := ticksUntil_fall advances seen ends poised before wait
  rw [tickAt_slot_fall (s := clearPorts s) legal poised st role ph last later
    (by dsimp only [elapsed, clearPorts_time, clearPorts_params]; omega)] at toFall
  have rest (tDrive ended now : Nat) (since : fell ≤ now) : Rests true (sch.fall + s.params.bitNom)
      (slotEnd now (slotAck s.rx (a && !s.rx.ackMe)) (waited ended (slotReleased fell tDrive (clearPorts s)))) := by
    have slot : InSlot (waited ended (slotReleased fell tDrive (clearPorts s))) :=
      { legal := legal.of_receives ⟨.inr (.inr rfl), rfl, .inl rfl⟩ rfl }
    exact (slot.slotEnd_rests rfl noInit free bitMax since).mono (Nat.add_le_add_right begun _)
  obtain ⟨tDrive, rose, t, kept, pulsed, run⟩ :=
    ticksUntil_slotOpen (s := clearPorts s) a timing legal poised advances later begun prompt rest
  refine ⟨_, congrArg Host.Outcome.next ((onWire_eq_ticksUntil ..).trans (toFall.trans run)), rfl, rfl, ?_, begun, prompt,
    rfl, rfl, kept, pulsed, rfl, rfl, rfl, rfl, rfl, rfl⟩
  exact (ite_and ..).symm

end Sys2Proof.Machine
end

section
/-! SUPPORT. Who delivers a frame (`42_framer.md` R259): the handler of a received ACK slot, in a core that wants the
frame, and no other handler, end of an attempt or INIT. -/

namespace Sys2Proof.Machine

section
variable {bytes : List Byte} {acks : List Bool} {ack : Bool}

/-! ### What delivers nothing -/

/-- The end of an attempt reports to the sender or the session, and delivers no frame (R298). -/
theorem attemptEnd_rxComplete (now : Nat) (o : TxOutcome) (s : State) :
    .rxComplete bytes acks ack ∈ (attemptEnd now o s).events ↔ .rxComplete bytes acks ack ∈ s.events := by
  have advance (u : State) : .rxComplete bytes acks ack ∈ (nextCandidate now u).events ↔
      .rxComplete bytes acks ack ∈ u.events := by
    rcases nextCandidate_cases now u with ⟨-, next⟩ | ⟨c, -, -, next⟩ <;> simp [next]
  rcases attemptEnd_cases now o s with ⟨-, -, ends⟩ | ⟨-, -, ends⟩ | ⟨-, -, -, -, ends⟩ | ⟨-, -, ends⟩ |
    ⟨-, -, -, ends⟩ | ⟨-, -, -, ends⟩ <;> simp [ends, advance]

/-- Neither does an INIT that is applied (R342). -/
theorem applyInit_rxComplete (now : Nat) (s : State) :
    .rxComplete bytes acks ack ∈ (applyInit now s).events ↔ .rxComplete bytes acks ack ∈ s.events := by
  rcases applyInit_cases now s with ⟨-, applied⟩ | ⟨c, rest, -, applied⟩ <;> simp [applied]

/-- Only the handler of a received ACK slot delivers a frame (R189). -/
theorem runHandler_rxComplete {h : Handler} (notSlot : h ≠ .rxAckLow) (p : Sample) (s : State) :
    .rxComplete bytes acks ack ∈ (runHandler h p s).events ↔ .rxComplete bytes acks ack ∈ s.events := by
  cases h <;> dsimp only [runHandler]
  case rxAckLow => contradiction
  case none => exact Iff.rfl
  case idle => unfold handleIdle; split_ifs <;> simp [attemptEnd_rxComplete]
  case gap => unfold handleGap; split_ifs <;> simp
  case awaitLow => unfold handleAwaitLow; split_ifs <;> simp
  case awaitTotal => unfold handleAwaitTotal; split_ifs <;> simp
  case sendStart => unfold handleSendStart; split_ifs <;> simp [attemptEnd_rxComplete]
  case sendStartEnd => unfold handleSendStartEnd; split_ifs <;> simp
  case txBitLow => rw [handleTxBitLow, apply_ite State.events]; simp
  case txBitSample => unfold handleTxBitSample; dsimp only; split_ifs <;> simp [attemptEnd_rxComplete]
  case txBitEnd => unfold handleTxBitEnd; split_ifs <;> simp
  case txAckLow => unfold handleTxAckLow; split_ifs <;> simp
  case txAckSample => unfold handleTxAckSample; dsimp only; split_ifs <;> simp [attemptEnd_rxComplete]
  case txAckEnd => unfold handleTxAckEnd; split_ifs <;> simp
  case rxBitLow =>
    rw [handleRxBitLow_eq]
    cases classify s.params p.el <;> split_ifs <;> simp [recordRxBit_eq]
  case rxBitEnd => unfold handleRxBitEnd; dsimp only; split_ifs <;> simp
  case rxAckEnd => unfold handleRxAckEnd; split_ifs <;> simp

/-- A TICK's sampling and epilogue deliver nothing either. -/
theorem serveTick_rxComplete {s : State} (notSlot : selectHandler s.seq.st s.seq.role s.seq.ph ≠ .rxAckLow)
    (now : Nat) (lineIn : Bool) :
    .rxComplete bytes acks ack ∈ (serveTick now lineIn s).events ↔ .rxComplete bytes acks ack ∈ s.events := by
  rw [serveTick_eq, epilogue_events, runHandler_rxComplete notSlot, stampFree_events]

/-! ### The delivery -/

/-- The state `s` made the core deliver a frame, and `t` holds its record (R255, R259, R266). -/
structure Delivers (bytes : List Byte) (acks : List Bool) (ack : Bool) (s t : State) : Prop where
  heard : wanted s.cfg s.session (rxHeader s.rx) = true
  last : s.rx.eom = true
  frame : bytes = rxBytes t.rx
  record : acks = rxAcks t.rx
  all : ack = frameAck acks

/-- The record of an ACK slot delivers the frame after its last block, where the frame is wanted (R189). -/
theorem delivers_of_recordRxAck {now : Nat} {k : Bool} {s : State} (silent : .rxComplete bytes acks ack ∉ s.events)
    (delivered : .rxComplete bytes acks ack ∈ (recordRxAck now k s).events) :
    Delivers bytes acks ack s (recordRxAck now k s) := by
  unfold recordRxAck at delivered ⊢
  dsimp only at delivered ⊢
  split_ifs at delivered ⊢ with last heard
  · rw [emit_events, List.mem_append, List.mem_singleton] at delivered
    cases delivered.resolve_left silent
    exact ⟨heard, last, rfl, rfl, rfl⟩
  all_goals exact absurd (by simpa using delivered) silent

/-- Of the branches of R189 only the decoded slot delivers. -/
theorem delivers_of_handleRxAckLow {p : Sample} {s : State} (silent : .rxComplete bytes acks ack ∉ s.events)
    (delivered : .rxComplete bytes acks ack ∈ (handleRxAckLow p s).events) :
    Delivers bytes acks ack s (handleRxAckLow p s) := by
  rw [handleRxAckLow_eq] at delivered ⊢
  generalize classify s.params p.el = decoded at delivered ⊢
  split_ifs at delivered ⊢ with pulse rise late
  · exact absurd (by simpa using delivered) silent
  · cases decoded with
    | none => exact absurd (by simpa using delivered) silent
    | some v => exact delivers_of_recordRxAck silent delivered
  · exact absurd (by simpa using delivered) silent
  · exact absurd delivered silent

/-- The sampling before the handler leaves what decides the delivery, and the epilogue after it leaves the record. -/
theorem delivers_of_serveTick {now : Nat} {lineIn : Bool} {s : State} (silent : .rxComplete bytes acks ack ∉ s.events)
    (delivered : .rxComplete bytes acks ack ∈ (serveTick now lineIn s).events) :
    Delivers bytes acks ack s (serveTick now lineIn s) := by
  by_cases slot : selectHandler s.seq.st s.seq.role s.seq.ph = .rxAckLow
  · rw [serveTick_eq, slot] at delivered ⊢
    rw [← stampFree_events (sampleOf now lineIn s)] at silent
    obtain ⟨heard, last, frame, record, all⟩ := delivers_of_handleRxAckLow silent delivered
    rw [stampFree_cfg, stampFree_session, stampFree_rx] at heard
    rw [stampFree_rx] at last
    exact ⟨heard, last, frame, record, all⟩
  · exact absurd ((serveTick_rxComplete slot ..).mp delivered) silent

/-- A TICK that delivers a frame has applied no INIT: an INIT leads to IDLE, whose handler delivers nothing (R342). -/
theorem delivers_of_tickAt {now : Nat} {lineIn : Bool} {s : State} (silent : .rxComplete bytes acks ack ∉ s.events)
    (delivered : .rxComplete bytes acks ack ∈ (tickAt now lineIn s).events) :
    Delivers bytes acks ack s (tickAt now lineIn s) := by
  cases halted : stuck s with
  | true => exact absurd (by simpa [tickAt_stuck halted] using delivered) silent
  | false =>
    rw [tickAt_served halted] at delivered ⊢
    split_ifs at delivered ⊢ with due
    · obtain ⟨seq, -⟩ := applyInit_seq_tAttempt now s
      have idle : (applyInit now s).seq.st = .idle := by rw [seq]
      have notSlot : selectHandler (applyInit now s).seq.st (applyInit now s).seq.role (applyInit now s).seq.ph ≠
          .rxAckLow := by rw [idle]; exact nofun
      rw [serveTick_rxComplete notSlot, applyInit_rxComplete] at delivered
      exact absurd delivered silent
    · exact delivers_of_serveTick silent delivered

end

/-- Settles O51: the TICK runs on cleared ports, so what it hands over it has delivered. -/
theorem deliveryIsFiltered : Obligations.DeliveryIsFiltered := by
  intro now lineIn s t bytes acks ack tick delivered
  obtain ⟨-, rfl⟩ := execTick_eq_next tick
  obtain ⟨heard, last, frame, record, all⟩ := delivers_of_tickAt (s := clearPorts s) List.not_mem_nil delivered
  exact ⟨(wanted_iff ..).mp heard, frame, record, by rw [all, frameAck, List.all_eq_true]; rfl, last⟩

end Sys2Proof.Machine
end

section
/-! SUPPORT. The framer's pure functions (`42_framer.md` R250 to R253): where a sender's bits stand in encode's sequence,
that assemble undoes encode, and that the waveform of a frame spells its symbols. -/

namespace Sys2Proof.Machine

/-! ### The symbols of a frame -/

/-- A block is ten symbols (R250). -/
@[simp] theorem length_frameBlock (d : Byte) (last : Bool) : (frameBlock d last).length = 10 := rfl

/-- A block is its eight data bits, EOM, and a released ACK slot (R250). -/
theorem frameBlock_getElem? (d : Byte) (last : Bool) {i : Nat} (inside : i ≤ 9) :
    (frameBlock d last)[i]? =
      some (.bit (if i ≤ 7 then d.getLsbD (7 - i) else if i = 8 then last else true)) := by
  interval_cases i <;> rfl

theorem length_frameBlocks (frame : List Byte) : (frameBlocks frame).length = 10 * frame.length := by
  induction frame with
  | nil => rfl
  | cons d rest ih =>
    rw [frameBlocks, List.length_append, ih, length_frameBlock, List.length_cons, Nat.mul_succ, Nat.add_comm]

/-- Symbol `i` of block `b` of a frame, EOM being 1 in the last block only (R250). -/
theorem frameBlocks_getElem? {frame : List Byte} {b i : Nat} (block : b < frame.length) (inside : i ≤ 9) :
    (frameBlocks frame)[10 * b + i]? = (frameBlock frame[b] (b == frame.length - 1))[i]? := by
  induction frame generalizing b with
  | nil => cases block
  | cons d rest ih =>
    cases b with
    | zero =>
      have last : rest.isEmpty = (0 == rest.length) := by cases rest <;> rfl
      rw [frameBlocks, List.getElem?_append_left (by rw [length_frameBlock]; omega), Nat.mul_zero, Nat.zero_add, last]
      rfl
    | succ b =>
      have more : b < rest.length := Nat.lt_of_succ_lt_succ block
      have last : (b + 1 == rest.length) = (b == rest.length - 1) := by
        rw [Bool.eq_iff_iff, beq_iff_eq, beq_iff_eq]; omega
      rw [frameBlocks, List.getElem?_append_right (by rw [length_frameBlock]; omega), length_frameBlock,
        show 10 * (b + 1) + i - 10 = 10 * b + i by omega, ih more, List.getElem_cons_succ, List.length_cons,
        Nat.add_sub_cancel, last]

/-- Settles O58: bit `i` of block `b` stands after the START and `b` blocks, and TxBit reads it from the same byte. -/
theorem sentBitsFollowEncode : Obligations.SentBitsFollowEncode := by
  intro q x block fits inside
  have length : (txBytes x).length = x.len.toNat := List.length_take_of_le fits
  have sent : (txBytes x)[q.blk.toNat]'(length ▸ block) = x.buf.getD q.blk.toNat 0 := by
    simp [txBytes, block.trans_le fits]
  refine ⟨rfl, ?_, ?_⟩
  · rw [frameSymbols, show 1 + 10 * q.blk.toNat + q.bitIdx.toNat = 10 * q.blk.toNat + q.bitIdx.toNat + 1 by omega,
      List.getElem?_cons_succ, frameBlocks_getElem? (length ▸ block) inside, frameBlock_getElem? _ _ inside, sent,
      length]
    rfl
  · rw [frameSymbols, List.length_cons, length_frameBlocks, length, Nat.add_comm]

/-! ### Assemble -/

/-- Eight bits of a byte, most significant first, are the byte again (`20_memory.md` R85). -/
theorem bitsByte_byteBits (d : Byte) : bitsByte (byteBits d) = d := by
  revert d; decide

/-- The blocks of a frame as the bus carries them when every ACK slot reads `v` (R253). -/
def answeredBlocks (v : Bool) : List Byte → List WireSymbol
  | [] => []
  | d :: rest => (byteBits d).map .bit ++ .bit rest.isEmpty :: .bit v :: answeredBlocks v rest

/-- Encode releases every ACK slot (R250). -/
theorem answeredBlocks_true (frame : List Byte) : answeredBlocks true frame = frameBlocks frame := by
  induction frame with
  | nil => rfl
  | cons d rest ih => rw [answeredBlocks, ih]; rfl

/-- The ACK slot is the last of a block's ten symbols. -/
theorem mapIdx_frameBlock (v : Bool) (d : Byte) (last : Bool) :
    (frameBlock d last).mapIdx (fun k x => if (k + 1) % 10 = 0 then .bit v else x) =
      (byteBits d).map .bit ++ [.bit last, .bit v] := by
  simp [frameBlock, byteBits, List.range_succ]

/-- An answer that replaces every tenth symbol of the blocks leaves what the bus carries in its ACK slots (R253). -/
theorem mapIdx_frameBlocks (v : Bool) (frame : List Byte) :
    (frameBlocks frame).mapIdx (fun k x => if (k + 1) % 10 = 0 then .bit v else x) = answeredBlocks v frame := by
  induction frame with
  | nil => rfl
  | cons d rest ih =>
    have shift (k : Nat) : (k + 10 + 1) % 10 = (k + 1) % 10 := by omega
    rw [frameBlocks, List.mapIdx_append, length_frameBlock]
    simp only [shift]
    rw [ih, mapIdx_frameBlock, answeredBlocks, List.append_assoc]
    rfl

/-- One round of assemble's loop: ten symbols are a byte, EOM and an ack (R252). -/
theorem assembleLoop_block (maxFrame : Nat) (bytes : List Byte) (acks : List Bool) (d : Byte) (e a : Bool)
    (rest : List WireSymbol) :
    assembleLoop maxFrame bytes acks ((byteBits d).map .bit ++ .bit e :: .bit a :: rest) =
      let k := ackOf (directed ((bytes ++ [d]).getD 0 0)) a
      if e then .frame (bytes ++ [d]) (acks ++ [k])
      else if !k then .partialError
      else if maxFrame ≤ (bytes ++ [d]).length then .partialError
      else assembleLoop maxFrame (bytes ++ [d]) (acks ++ [k]) rest := by
  conv_rhs => rw [← bitsByte_byteBits d]
  rfl

/-- Where every ACK slot reads as an acknowledge of the frame's header, the loop takes in all the blocks left. -/
theorem assembleLoop_answeredBlocks {maxFrame : Nat} {h : Byte} {v : Bool} (acked : ackOf (directed h) v = true)
    (d : Byte) (rest bytes : List Byte) (acks : List Bool) (header : (bytes ++ [d]).getD 0 0 = h)
    (fits : bytes.length + (rest.length + 1) ≤ maxFrame) :
    assembleLoop maxFrame bytes acks (answeredBlocks v (d :: rest)) =
      .frame (bytes ++ d :: rest) (acks ++ List.replicate (rest.length + 1) true) := by
  induction rest generalizing d bytes acks with
  | nil =>
    rw [answeredBlocks, assembleLoop_block, header, acked]
    rfl
  | cons d' rest ih =>
    have header' : (bytes ++ [d] ++ [d']).getD 0 0 = h := by
      rw [← header]; cases bytes <;> rfl
    have length : (bytes ++ [d]).length = bytes.length + 1 := List.length_append
    rw [List.length_cons] at fits
    have room : ¬ maxFrame ≤ (bytes ++ [d]).length := by omega
    have left := ih d' (bytes ++ [d]) (acks ++ [true]) header' (by omega)
    rw [answeredBlocks, assembleLoop_block, header, acked]
    simp only [List.isEmpty_cons, Bool.not_true, Bool.false_eq_true, if_false, room, left, List.append_assoc]
    rfl

/-- Assemble gives back a frame of at most `MAX_FRAME` bytes whose every block is acknowledged (R252). -/
theorem assemble_answered {maxFrame : Nat} {h : Byte} {v : Bool} (acked : ackOf (directed h) v = true)
    {payload : List Byte} (fits : payload.length + 1 ≤ maxFrame) :
    assemble maxFrame (.start :: answeredBlocks v (h :: payload)) =
      .frame (h :: payload) (List.replicate (payload.length + 1) true) :=
  assembleLoop_answeredBlocks acked h payload [] [] rfl (by simpa using fits)

/-- Settles O59: a released ACK slot acknowledges a broadcast, a LOW one a directed frame, and the loop takes in block
after block. -/
theorem assembleInvertsEncode : Obligations.AssembleInvertsEncode := by
  intro maxFrame h payload fits
  refine ⟨fun broadcast => ?_, fun direct => ?_⟩
  · rw [frameSymbols, ← answeredBlocks_true]
    exact assemble_answered (by rw [ackOf_directed, if_pos broadcast]) fits
  · have pulled : (frameSymbols (h :: payload)).mapIdx (fun k x => if 1 ≤ k ∧ k % 10 = 0 then .bit false else x) =
        .start :: answeredBlocks false (h :: payload) := by
      rw [frameSymbols, List.mapIdx_cons, ← mapIdx_frameBlocks]
      simp
    rw [pulled]
    exact assemble_answered (by rw [ackOf_directed, if_neg direct]; rfl) fits

/-! ### The waveform of a frame -/

/-- The nominal bit period of a wire symbol (`30_encoding.md` R110). -/
def symbolPulse (c : Config) : WireSymbol → Pulse
  | .start => startPulse c
  | .bit b => bitPulse c b

/-- A block with its ACK slot released is its symbols (R111, R115). -/
theorem blockPulses_released (c : Config) (d : Byte) (last : Bool) :
    blockPulses c d last true = (frameBlock d last).map (symbolPulse c) := rfl

theorem blocksPulses_released (c : Config) (frame : List Byte) :
    blocksPulses c (frame.map fun d => (d, true)) = (frameBlocks frame).map (symbolPulse c) := by
  induction frame with
  | nil => rfl
  | cons d rest ih =>
    rw [List.map_cons, blocksPulses, ih, List.isEmpty_map, blockPulses_released, frameBlocks, List.map_append]

theorem totalPeriod_append (ps qs : List Pulse) : totalPeriod (ps ++ qs) = totalPeriod ps + totalPeriod qs := by
  induction ps with
  | nil => exact (Nat.zero_add _).symm
  | cons p ps ih => rw [List.cons_append, totalPeriod, totalPeriod, ih, Nat.add_assoc]

/-- Data bits take one nominal bit period each, whatever they are (R110). -/
theorem totalPeriod_bitPulses (c : Config) (bits : List Bool) :
    totalPeriod (bits.map (bitPulse c)) = bits.length * c.bitNom := by
  induction bits with
  | nil => exact (Nat.zero_mul _).symm
  | cons b bits ih => rw [List.map_cons, totalPeriod, ih, List.length_cons, Nat.succ_mul, Nat.add_comm]; rfl

/-- A block takes ten nominal bit periods, whatever its bits and its answer (R251). -/
theorem totalPeriod_blockPulses (c : Config) (d : Byte) (e a : Bool) :
    totalPeriod (blockPulses c d e a) = 10 * c.bitNom := by
  have eomAndAck : totalPeriod [bitPulse c e, ackPulse c a] = c.bitNom + c.bitNom := rfl
  have eight : (byteBits d).length = 8 := rfl
  rw [blockPulses, totalPeriod_append, bytePulses, totalPeriod_bitPulses, eomAndAck, eight]
  omega

theorem totalPeriod_blocksPulses (c : Config) (blocks : List (Byte × Bool)) :
    totalPeriod (blocksPulses c blocks) = 10 * blocks.length * c.bitNom := by
  induction blocks with
  | nil => exact (Nat.zero_mul _).symm
  | cons block rest ih =>
    rw [blocksPulses, totalPeriod_append, totalPeriod_blockPulses, ih, List.length_cons]
    ring

/-- Settles O60: block by block, the waveform is the symbols' and the blocks' times add up. -/
theorem frameWaveformIsEncode : Obligations.FrameWaveformIsEncode := by
  intro c frame blocks
  refine ⟨?_, ?_⟩
  · rw [framePulses, blocksPulses_released]
    exact congrArg (startPulse c :: ·) (List.map_congr_left fun x _ => by cases x <;> rfl)
  · rw [framePulses, totalPeriod, totalPeriod_blocksPulses]
    rfl

end Sys2Proof.Machine
end

section
/-! SUPPORT. The end of a transmission attempt and the next candidate as `43_arbiter.md` writes them (R298, R302, R304),
and the free bus a frame starts on (R290). -/

namespace Sys2Proof.Machine

/-! ### The end of an attempt -/

/-- R298 for a poll. -/
theorem attemptEnd_of_poll (now : Nat) (o : TxOutcome) {s : State} (poll : s.tx.kind = .poll) :
    attemptEnd now o s =
      if o = .success then nextCandidate now (recordOutcome o s)
      else if o = .nak then claim (lowNibble (txHeader s.tx)) (recordOutcome o s)
      else if s.params.maxAttempts ≤ s.tx.attempt + 1 then nextCandidate now (countAttempt (recordOutcome o s))
      else rearm now (countAttempt (recordOutcome o s)) := by
  unfold attemptEnd
  simp only [recordOutcome_tx, poll]
  rfl

/-- R298 for a host frame. -/
theorem attemptEnd_of_host (now : Nat) (o : TxOutcome) {s : State} (host : s.tx.kind = .host) :
    attemptEnd now o s =
      if o = .success then completeTx true .success (recordOutcome o s)
      else if s.params.maxAttempts ≤ s.tx.attempt + 1 then completeTx false o (countAttempt (recordOutcome o s))
      else rearm now (countAttempt (recordOutcome o s)) := by
  unfold attemptEnd
  simp only [recordOutcome_tx, host]
  rfl

/-- Settles O38: the kind of the frame selects R298's part, and its branches are the statement's in their order. -/
theorem attemptEndDecides : Obligations.AttemptEndDecides := by
  intro now o s
  refine ⟨fun poll => ?_, fun host => ?_⟩
  · rw [attemptEnd_of_poll now o poll]
    exact if_congr Iff.rfl rfl (if_congr Iff.rfl rfl (if_congr Iff.rfl rfl rfl))
  · rw [attemptEnd_of_host now o host]
    exact if_congr Iff.rfl rfl (if_congr Iff.rfl rfl rfl)

/-- Settles O39: the candidate at the advanced `cand_idx` is in the list, or the list has ended. -/
theorem nextCandidateAdvancesOrFails : Obligations.NextCandidateAdvancesOrFails := by
  intro now s
  refine ⟨fun past => ?_, fun inside => ?_⟩
  · rcases nextCandidate_cases now s with ⟨-, next⟩ | ⟨c, listed, -, -⟩
    · rw [next]
      rfl
    · rw [List.getElem?_eq_none past] at listed
      cases listed
  · rcases nextCandidate_cases now s with ⟨absent, -⟩ | ⟨c, listed, -, next⟩
    · exact absurd inside (Nat.not_lt.mpr (List.getElem?_eq_none_iff.mp absent))
    · rw [List.getElem?_eq_getElem inside] at listed
      cases listed
      rw [next]
      rfl

/-! ### The start of a frame -/

/-- Whatever the IDLE handler does, the TICK's sampling alone dates the free bus (R155). -/
theorem idleNext_tFree (now : Nat) (lineIn : Bool) (s : State) :
    (idleNext now lineIn s).time.tFree = (sampledTime now lineIn s).tFree := by
  unfold idleNext
  split_ifs
  · rfl
  · exact (attemptEnd_handlerFrame ..).tFree
  · rfl
  · rfl

/-- Of the branches of R173 one leads to SEND_START, under R290's condition. -/
theorem idleNext_sendStart_iff {now : Nat} {lineIn : Bool} {s : State} (st : s.seq.st = .idle) :
    (idleNext now lineIn s).seq.st = .sendStart ↔
      s.tx.pending = true ∧ ¬ FallSeen now lineIn s ∧ now - s.time.tAttempt < s.params.tWaitFreeMax ∧
      ValidRead now s ∧ lineIn = true ∧ s.tx.sft * s.params.bitNom ≤ now - (sampledTime now lineIn s).tFree := by
  have idle : (sampled now lineIn s).seq.st ≠ .sendStart := by
    have kept : (sampled now lineIn s).seq = s.seq := rfl
    rw [kept, st]
    exact nofun
  unfold idleNext
  split_ifs with fall late free
  · exact iff_of_false nofun fun ⟨_, noFall, _⟩ => noFall fall
  · rw [attemptEnd_seq]
    exact iff_of_false idle fun ⟨_, _, early, _⟩ => Nat.not_le.mpr early late.2
  · obtain ⟨pending, valid, high, waited⟩ := free
    exact iff_of_true rfl ⟨pending, fall, Nat.not_le.mp fun tooLong => late ⟨pending, tooLong⟩, valid, high, waited⟩
  · exact iff_of_false idle fun ⟨pending, _, _, rest⟩ => free ⟨pending, rest⟩

/-- Settles O25: the TICK is `idleNext`, which starts a frame in one branch. -/
theorem frameStartsOnlyOnFreeBus : Obligations.FrameStartsOnlyOnFreeBus := by
  intro now lineIn s t legal noInit st tick
  obtain ⟨later, -⟩ := execTick_eq_next tick
  rw [idleYieldsTimesOutOrStarts now lineIn s later legal noInit st] at tick
  cases tick
  rw [idleNext_tFree]
  exact idleNext_sendStart_iff st

end Sys2Proof.Machine
end

section
/-! SUPPORT. What a TICK does to a transmission and to the session (`43_arbiter.md` R298 to R309): no handler touches
them but the one that ends an attempt, which does so once and only while a transmission is pending (`HandlerEffect`).
From it what becomes of a claimed address, a pending host frame and an allocation. -/

namespace Sys2Proof.Machine

/-! ### One handler -/

/-- From `s` to `t` neither the session nor the transmission in hand changes, and nothing is reported. The acks and
`post_success` are the only transmit registers a handler writes by itself (R173, R174, R184). -/
structure SameTransmission (t s : State) : Prop where
  params : t.params = s.params := by simp
  session : t.session = s.session := by simp
  events : t.events = s.events := by simp
  buf : t.tx.buf = s.tx.buf := by simp
  len : t.tx.len = s.tx.len := by simp
  pending : t.tx.pending = s.tx.pending := by simp
  kind : t.tx.kind = s.tx.kind := by simp
  attempt : t.tx.attempt = s.tx.attempt := by simp

theorem SameTransmission.trans {u t s : State} (h : SameTransmission u t) (h' : SameTransmission t s) :
    SameTransmission u s :=
  ⟨h.params.trans h'.params, h.session.trans h'.session, h.events.trans h'.events, h.buf.trans h'.buf,
    h.len.trans h'.len, h.pending.trans h'.pending, h.kind.trans h'.kind, h.attempt.trans h'.attempt⟩

/-- What the handler `h` at `now` makes of the transmission and the session: nothing, a delivered frame (R189), or the
end of the pending attempt. -/
inductive HandlerEffect (h : Handler) (now : Nat) (t s : State) : Prop where
  | goesOn (same : SameTransmission t s)
  | delivered (u : State) (bytes : List Byte) (acks : List Bool) (ack : Bool) (slot : h = .rxAckLow)
      (same : SameTransmission u s) (report : t = emit (.rxComplete bytes acks ack) u)
  | ended (u : State) (o : TxOutcome) (pending : s.tx.pending = true) (same : SameTransmission u s)
      (attempt : t = attemptEnd now o u)

/-- The handlers of a sending core that can end its attempt (R177, R181, R184). -/
def endsSending : List Handler := [.sendStart, .txBitSample, .txAckSample]

theorem recordRxAck_effect (now : Nat) (ack : Bool) (s : State) :
    HandlerEffect .rxAckLow now (recordRxAck now ack s) s := by
  unfold recordRxAck
  dsimp only
  split_ifs
  · exact .delivered _ _ _ _ rfl {} rfl
  all_goals exact .goesOn {}

/-- What each handler of R173 to R190 does, if the core can end its sending only while a transmission is pending. -/
theorem runHandler_effect {h : Handler} {p : Sample} {s : State} (sends : h ∈ endsSending → s.tx.pending = true) :
    HandlerEffect h p.now (runHandler h p s) s := by
  cases h <;> dsimp only [runHandler]
  case none => exact .goesOn {}
  case idle =>
    unfold handleIdle
    split_ifs with fall late free
    · exact .goesOn {}
    · rw [Bool.and_eq_true] at late
      exact .ended s .timeout late.1 {} rfl
    · exact .goesOn {}
    · exact .goesOn {}
  case gap => unfold handleGap; split_ifs <;> exact .goesOn {}
  case awaitLow => unfold handleAwaitLow; split_ifs <;> exact .goesOn {}
  case awaitTotal => unfold handleAwaitTotal; split_ifs <;> exact .goesOn {}
  case sendStart =>
    have pending := sends (by simp [endsSending])
    unfold handleSendStart
    split_ifs
    · exact .goesOn {}
    · exact .goesOn {}
    · exact .goesOn {}
    · exact .ended _ .arbLost pending {} rfl
    · exact .goesOn {}
  case sendStartEnd => unfold handleSendStartEnd; split_ifs <;> exact .goesOn {}
  case txBitLow =>
    unfold handleTxBitLow
    generalize (if txBit s.seq s.tx then s.params.oneLowNom else s.params.zeroLowNom) = low
    split_ifs <;> exact .goesOn {}
  case txBitSample =>
    have pending := sends (by simp [endsSending])
    unfold handleTxBitSample
    dsimp only
    split_ifs
    · exact .ended _ .arbLost pending {} rfl
    · exact .ended _ .busError pending {} rfl
    all_goals exact .goesOn {}
  case txBitEnd => unfold handleTxBitEnd; split_ifs <;> exact .goesOn {}
  case txAckLow => unfold handleTxAckLow; split_ifs <;> exact .goesOn {}
  case txAckSample =>
    have pending := sends (by simp [endsSending])
    unfold handleTxAckSample
    dsimp only
    split_ifs
    · exact .ended _ .nak pending {} rfl
    · exact .ended _ .success pending {} rfl
    all_goals exact .goesOn {}
  case txAckEnd => unfold handleTxAckEnd; split_ifs <;> exact .goesOn {}
  case rxBitLow =>
    simp only [handleRxBitLow_eq, recordRxBit_eq]
    cases classify s.params p.el <;> split_ifs <;> exact .goesOn {}
  case rxBitEnd => unfold handleRxBitEnd; dsimp only; split_ifs <;> exact .goesOn {}
  case rxAckLow =>
    rw [handleRxAckLow_eq]
    split_ifs
    · exact .goesOn {}
    · cases classify s.params p.el with
      | none => exact .goesOn (t := rxError p.now s) {}
      | some v => exact recordRxAck_effect ..
    · exact .goesOn {}
    · exact .goesOn {}
  case rxAckEnd => unfold handleRxAckEnd; split_ifs <;> exact .goesOn {}

/-! ### One TICK -/

/-- A TICK's sampling and epilogue leave the effect of its handler as it is (R170). -/
theorem serveTick_effect {s : State} (now : Nat) (lineIn : Bool)
    (sends : selectHandler s.seq.st s.seq.role s.seq.ph ∈ endsSending → s.tx.pending = true) :
    HandlerEffect (selectHandler s.seq.st s.seq.role s.seq.ph) now (serveTick now lineIn s) s := by
  have stamped : SameTransmission (stampFree (sampleOf now lineIn s) s) s := {}
  have closed (u : State) : SameTransmission (epilogue (sampleOf now lineIn s) u) u := {}
  rw [serveTick_eq]
  cases runHandler_effect (p := sampleOf now lineIn s) (s := stampFree (sampleOf now lineIn s) s)
    (fun ends => stamped.pending.trans (sends ends)) with
  | goesOn same => exact .goesOn ((closed _).trans (same.trans stamped))
  | delivered u bytes acks ack slot same report =>
    rw [report]
    exact .delivered _ _ _ _ slot ((closed u).trans (same.trans stamped)) rfl
  | ended u o pending same attempt =>
    rw [attempt]
    exact .ended _ o (stamped.pending.symm.trans pending) ((closed u).trans (same.trans stamped))
      (attemptEnd_epilogue ..).symm

/-- A core that can end its sending has a transmission pending (R298). -/
theorem Stands.pending_of_endsSending {s : State} (h : Stands s)
    (ends : selectHandler s.seq.st s.seq.role s.seq.ph ∈ endsSending) : s.tx.pending = true := by
  cases h with
  | sendStart _ _ _ pending | txBit _ _ _ pending | txAck _ _ _ pending => exact pending
  | idle st role | gap st role | awaitStart st role | rxBit st role | rxAck st role =>
    cases ph : s.seq.ph <;> simp [selectHandler, endsSending, st, role, ph] at ends

/-- In a state of a run R193 stops no TICK. -/
theorem RunInvariant.stuck_eq_false {s : State} (h : RunInvariant s) : stuck s = false := by
  obtain ⟨inTable, -⟩ := h.table
  exact Machine.stuck_eq_false.mpr ⟨legal_of_invariants h.toInvariants h.codes, inTable⟩

/-- With no INIT due, a TICK of a run is the effect of the selected handler. -/
theorem RunInvariant.tickAt_effect {s : State} (inv : RunInvariant s) (now : Nat) (lineIn : Bool)
    (noInit : initDue s = false) :
    HandlerEffect (selectHandler s.seq.st s.seq.role s.seq.ph) now (Machine.tickAt now lineIn s) s := by
  rw [tickAt_served inv.stuck_eq_false, if_neg (by simp [noInit])]
  exact serveTick_effect now lineIn (stands_of_runInvariant inv).pending_of_endsSending

/-- With an INIT due, the IDLE handler follows ApplyInit (R170). -/
theorem RunInvariant.tickAt_effect_of_initDue {s : State} (inv : RunInvariant s) (now : Nat) (lineIn : Bool)
    (due : initDue s = true) : HandlerEffect .idle now (Machine.tickAt now lineIn s) (applyInit now s) := by
  obtain ⟨seq, -⟩ := applyInit_seq_tAttempt now s
  have selected :
      selectHandler (applyInit now s).seq.st (applyInit now s).seq.role (applyInit now s).seq.ph = .idle := by
    rw [seq]
    rfl
  have served := serveTick_effect (s := applyInit now s) now lineIn (by simp [selected, endsSending])
  rw [tickAt_served inv.stuck_eq_false, if_pos due]
  rwa [selected] at served

/-! ### A claimed address -/

/-- The end of a host attempt leaves the session (R298). -/
theorem attemptEnd_session_of_host (now : Nat) (o : TxOutcome) {s : State} (host : s.tx.kind = .host) :
    (attemptEnd now o s).session = s.session := by
  rw [attemptEnd_of_host now o host]
  split_ifs <;> simp

/-- While an address is claimed no poll is pending (R44, 6). -/
theorem LinkOk.host_of_claimed {s : State} (h : LinkOk s) (claimed : s.session.alloc = .claimed)
    (pending : s.tx.pending = true) : s.tx.kind = .host := by
  cases kind : s.tx.kind with
  | host => rfl
  | poll => rw [h.polling kind pending] at claimed; cases claimed

theorem HandlerEffect.session_of_claimed {h : Handler} {now : Nat} {t s : State} (effect : HandlerEffect h now t s)
    (link : LinkOk s) (claimed : s.session.alloc = .claimed) : t.session = s.session := by
  cases effect with
  | goesOn same => exact same.session
  | delivered u bytes acks ack slot same report => rw [report, emit_session, same.session]
  | ended u o pending same attempt =>
    have host : u.tx.kind = .host := same.kind.trans (link.host_of_claimed claimed pending)
    rw [attempt, attemptEnd_session_of_host now o host, same.session]

/-- From `s` to `t` the latch and the session stay, or a latched INIT has been applied (R308, R342). -/
def SessionKeptOrInitApplied (s t : State) : Prop :=
  (t.pinit = s.pinit ∧ t.session = s.session) ∨ (s.pinit.valid = true ∧ t.pinit.valid = false)

/-- A TICK leaves a claimed core's session, unless it applies a latched INIT. -/
theorem RunInvariant.tickAt_session {s : State} (inv : RunInvariant s) (claimed : s.session.alloc = .claimed)
    (now : Nat) (lineIn : Bool) : SessionKeptOrInitApplied s (Machine.tickAt now lineIn s) := by
  cases due : initDue s with
  | true =>
    refine .inr ⟨valid_of_initDue due, ?_⟩
    rw [tickAt_served inv.stuck_eq_false, if_pos due, (serveTick_pinit_cfg ..).1]
    exact applyInit_pinit_valid now s
  | false =>
    refine .inl ⟨?_, (inv.tickAt_effect now lineIn due).session_of_claimed (runInvariant_iff.mp inv).link claimed⟩
    rw [tickAt_served inv.stuck_eq_false, if_neg (by simp [due]), (serveTick_pinit_cfg ..).1]

/-- One more TICK leaves it so: once the latch is empty, it stays empty. -/
theorem SessionKeptOrInitApplied.tickAt {s u : State} (h : SessionKeptOrInitApplied s u)
    (claimed : s.session.alloc = .claimed) (inv : RunInvariant u) (now : Nat) (lineIn : Bool) :
    SessionKeptOrInitApplied s (Machine.tickAt now lineIn u) := by
  rcases h with ⟨latch, session⟩ | ⟨valid, gone⟩
  · rw [SessionKeptOrInitApplied, ← latch, ← session]
    exact inv.tickAt_session (session ▸ claimed) ..
  · rcases tickAt_latch now lineIn u with ⟨latch, -⟩ | ⟨-, gone'⟩
    · exact .inr ⟨valid, latch ▸ gone⟩
    · exact .inr ⟨valid, gone'⟩

/-- A wire row is a run of such TICKs. -/
theorem RunInvariant.onWire_session {s : State} (inv : RunInvariant s) (claimed : s.session.alloc = .claimed)
    (sch : Sched) (pulses : List Pulse) : SessionKeptOrInitApplied s (Machine.onWire sch pulses s) := by
  have run : RunInvariant (Machine.onWire sch pulses s) ∧ SessionKeptOrInitApplied s (Machine.onWire sch pulses s) :=
    runTicks_induction (P := fun u => RunInvariant u ∧ SessionKeptOrInitApplied s u)
      (fun u ⟨ok, kept⟩ => ⟨ok.tickAt (Nat.le_add_right ..) (by simp), kept.tickAt claimed ok ..⟩) _ _
      ⟨inv.withPorts .., .inl ⟨rfl, rfl⟩⟩
  obtain ⟨-, kept⟩ := run
  exact kept

/-- Settles O45: only a TICK, alone or in a wire row, can end an attempt, and that of a claimed core is a host frame's. -/
theorem claimedAddressIsImmutable : Obligations.ClaimedAddressIsImmutable := by
  intro i s t inv env claimed notReset h latched
  have kept : SessionKeptOrInitApplied s t → t.session.la = s.session.la ∧ t.session.alloc = .claimed := by
    rintro (⟨-, session⟩ | ⟨valid, gone⟩)
    · rw [session]; exact ⟨rfl, claimed⟩
    · rw [latched valid] at gone; cases gone
  cases completes_of_exec h with
  | reset now0 => exact absurd rfl (notReset now0)
  | ticked now lineIn => exact kept (RunInvariant.tickAt_session (s := clearPorts s) (inv.withPorts ..) claimed ..)
  | wire i sch pulses => exact kept (inv.onWire_session claimed ..)
  | drove v => exact env.elim
  | latched | notReady | busy | tooLong | armed | gotLa | gotStatus | levelRead => exact ⟨rfl, claimed⟩

/-! ### A pending host frame -/

/-- Settles O48: a TICK that ends no attempt leaves the frame, and one that does ends it at a SUCCESS or at the last
failure the count allows. -/
theorem hostTransmissionEndsOnce : Obligations.HostTransmissionEndsOnce := by
  intro now lineIn s t inv pending host tick
  obtain ⟨-, rfl⟩ := execTick_eq_next tick
  obtain ⟨-, -, left⟩ := inv.pending pending
  have cleared : RunInvariant (clearPorts s) := inv.withPorts ..
  have noInit : initDue (clearPorts s) = false := initDue_of_noInitDue fun _ => ⟨pending, host⟩
  cases cleared.tickAt_effect now lineIn noInit with
  | goesOn same =>
    refine .inl ⟨same.pending.trans pending, same.kind.trans host, same.buf, same.len, same.attempt.ge, ?_⟩
    simp [same.attempt, same.events, left]
  | delivered u bytes acks ack slot same report =>
    rw [report]
    refine .inl ⟨same.pending.trans pending, same.kind.trans host, same.buf, same.len, same.attempt.ge, ?_⟩
    simp [same.attempt, same.events, left]
  | ended u o _ same attempt =>
    rw [attempt, attemptEnd_of_host now o (same.kind.trans host), same.params, same.attempt, clearPorts_params,
      clearPorts_tx]
    split_ifs with success last
    · exact .inr ⟨rfl, true, by simp [same.events, txBytes, txAcks, same.buf, same.len, success],
        .inl ⟨rfl, success, same.attempt⟩⟩
    · have count : s.tx.attempt + 1 = s.params.maxAttempts := le_antisymm left last
      exact .inr ⟨rfl, false, by simp [same.events, txBytes, txAcks, same.buf, same.len],
        .inr ⟨rfl, success, (congrArg (· + 1) same.attempt).trans count⟩⟩
    · refine .inl ⟨same.pending.trans pending, same.kind.trans host, same.buf, same.len, ?_⟩
      simp [same.attempt, same.events]
      omega

/-! ### An allocation that fails -/

/-- From `s` to `t` the allocation has failed, with the address left as it was (R304, R306). -/
structure FailsAllocation (t s : State) : Prop where
  alloc : t.session.alloc = .failed
  la : t.session.la = s.session.la
  pending : t.tx.pending = false
  events : t.events = s.events ++ [.allocFailed]

theorem nextCandidate_failsAllocation {now : Nat} {s : State} (fresh : .allocFailed ∉ s.events)
    (failed : .allocFailed ∈ (nextCandidate now s).events) : FailsAllocation (nextCandidate now s) s := by
  rcases nextCandidate_cases now s with ⟨-, next⟩ | ⟨c, -, -, next⟩ <;> rw [next] at failed ⊢
  · exact ⟨rfl, rfl, rfl, rfl⟩
  · exact absurd failed fresh

/-- An attempt's end reports ALLOC_FAILED only where it takes the next candidate, so for a poll (R298). -/
theorem attemptEnd_failsAllocation {now : Nat} {o : TxOutcome} {s : State} (fresh : .allocFailed ∉ s.events)
    (failed : .allocFailed ∈ (attemptEnd now o s).events) :
    s.tx.kind = .poll ∧ FailsAllocation (attemptEnd now o s) s := by
  have same (u : State) (la : u.session.la = s.session.la) (events : u.events = s.events)
      (failed : .allocFailed ∈ (nextCandidate now u).events) : FailsAllocation (nextCandidate now u) s := by
    obtain ⟨alloc, la', pending, events'⟩ := nextCandidate_failsAllocation (events ▸ fresh) failed
    exact ⟨alloc, la'.trans la, pending, events ▸ events'⟩
  rcases attemptEnd_cases now o s with ⟨poll, -, ends⟩ | ⟨-, -, ends⟩ | ⟨poll, -, -, -, ends⟩ | ⟨-, -, ends⟩ |
    ⟨-, -, -, ends⟩ | ⟨-, -, -, ends⟩ <;> rw [ends] at failed ⊢
  · exact ⟨poll, same _ rfl rfl failed⟩
  · exact absurd (by simpa using failed) fresh
  · exact ⟨poll, same _ rfl rfl failed⟩
  all_goals exact absurd (by simpa using failed) fresh

/-- A handler reports ALLOC_FAILED only for a pending poll, whose core has no address yet (R44, 6; R304, R306). -/
theorem HandlerEffect.failsAllocation {h : Handler} {now : Nat} {t s : State} (effect : HandlerEffect h now t s)
    (link : LinkOk s) (fresh : .allocFailed ∉ s.events) (failed : .allocFailed ∈ t.events) :
    FailsAllocation t s ∧ s.session.la = 15 := by
  cases effect with
  | goesOn same => exact absurd (same.events ▸ failed) fresh
  | delivered u bytes acks ack slot same report =>
    rw [report, emit_events, same.events] at failed
    exact absurd (by simpa using failed) fresh
  | ended u o pending same attempt =>
    subst attempt
    obtain ⟨poll, alloc, la, free, events⟩ := attemptEnd_failsAllocation (same.events.symm ▸ fresh) failed
    have polling := link.polling (same.kind.symm.trans poll) pending
    exact ⟨⟨alloc, same.session ▸ la, free, same.events ▸ events⟩, link.address (by simp [polling])⟩

/-- With nothing pending and no ACK slot to decide, a handler leaves the session and reports nothing. -/
theorem HandlerEffect.same_of_free {h : Handler} {now : Nat} {t s : State} (effect : HandlerEffect h now t s)
    (free : s.tx.pending = false) (notSlot : h ≠ .rxAckLow) : SameTransmission t s := by
  cases effect with
  | goesOn same => exact same
  | delivered _ _ _ _ slot => exact absurd slot notSlot
  | ended _ _ pending => rw [free] at pending; cases pending

/-- Settles O50: the allocation fails at the end of the last candidate's poll, or in ApplyInit when the device type has no
candidate, and the IDLE handler that follows then finds nothing pending. -/
theorem allocFailedLeavesNoAddress : Obligations.AllocFailedLeavesNoAddress := by
  intro now lineIn s t inv tick failed
  obtain ⟨-, rfl⟩ := execTick_eq_next tick
  have cleared : RunInvariant (clearPorts s) := inv.withPorts ..
  have link : LinkOk (clearPorts s) := (runInvariant_iff.mp cleared).link
  cases due : initDue (clearPorts s) with
  | false =>
    obtain ⟨⟨alloc, la, free, events⟩, none⟩ :=
      (cleared.tickAt_effect now lineIn due).failsAllocation link List.not_mem_nil failed
    exact ⟨alloc, la.trans none, free, events⟩
  | true =>
    have effect := cleared.tickAt_effect_of_initDue now lineIn due
    have polls : LinkOk (applyInit now (clearPorts s)) := link.toLinkBase.applyInit cleared.params now
    rcases applyInit_cases now (clearPorts s) with ⟨-, applied⟩ | ⟨c, rest, -, applied⟩ <;>
      rw [applied] at effect polls
    · have same := effect.same_of_free rfl nofun
      exact ⟨by rw [same.session]; rfl, by rw [same.session]; rfl, same.pending, same.events⟩
    · obtain ⟨⟨alloc, la, free, events⟩, none⟩ := effect.failsAllocation polls List.not_mem_nil failed
      exact ⟨alloc, la.trans none, free, events⟩

end Sys2Proof.Machine
end

section
/-! SUPPORT. The host commands (`44_host_interface.md` R340 to R345): each answers on cleared ports, and none but an
accepted TRANSMIT and an INIT writes a register. -/

namespace Sys2Proof.Machine

/-- Settles O11: INIT writes the latch on cleared ports. -/
theorem initLatchesAndAccepts : Obligations.InitLatchesAndAccepts := fun _ _ _ _ => rfl

/-- Settles O12: the tests of R343 in their order, on ports already cleared. -/
theorem transmitRespondsAndArms : Obligations.TransmitRespondsAndArms := by
  intro dest payload s
  rw [apply_ite Host.Outcome.next, apply_ite Host.Outcome.next, apply_ite Host.Outcome.next]
  exact if_congr Iff.rfl rfl (if_congr Iff.rfl rfl (if_congr Iff.rfl rfl rfl))

/-- Settles O14: the answer is `la`, and what it can be in a run the invariant says. -/
theorem getLaAnswersAddress : Obligations.GetLaAnswersAddress := by
  intro s
  refine ⟨rfl, fun inv => ?_⟩
  obtain ⟨-, candidate⟩ := inv.session
  exact ⟨inv.address, candidate⟩

/-- Settles O15: `statusOf` copies the registers, and each code function answers the register's code. -/
theorem getStatusAnswersRecord : Obligations.GetStatusAnswersRecord := by
  intro s
  exact ⟨statusOf s, rfl, ⟨rfl, rfl, rfl, rfl, rfl, rfl, rfl, rfl⟩,
    congrArg allocCode, congrArg allocCode, congrArg allocCode, congrArg allocCode,
    congrArg stCode, congrArg stCode, congrArg stCode, congrArg stCode, congrArg stCode, congrArg stCode,
    congrArg roleCode, congrArg roleCode, congrArg roleCode,
    congrArg kindCode, congrArg kindCode,
    congrArg outcomeCode, congrArg outcomeCode, congrArg outcomeCode, congrArg outcomeCode, congrArg outcomeCode,
    congrArg outcomeCode⟩

/-- No wire row is a command (`30_encoding.md` R120, R124). -/
theorem commandCode_of_wireWave {c : Config} {i : Instr} {wave : Sched × List Pulse} (row : wireWave c i = some wave) :
    commandCode i = none := by
  cases i with
  | init | transmit | getLa | getStatus | reservedCmd => cases row
  | _ => rfl

/-- Settles O17: of the steps that complete, those of a command write the latch, the transmit datapath, `t_attempt` and
the ports at most. -/
theorem commandsTouchOnlyLatches : Obligations.CommandsTouchOnlyLatches := by
  intro i s t command h
  cases completes_of_exec h with
  | reset | ticked | levelRead | drove => cases command
  | wire i sch pulses row => rw [commandCode_of_wireWave row] at command; cases command
  | latched | notReady | busy | tooLong | armed | gotLa | gotStatus =>
    exact ⟨rfl, rfl, rfl, rfl, rfl, rfl, rfl, rfl, rfl, rfl, rfl⟩

end Sys2Proof.Machine
end

section
/-! SUPPORT. The TICK that applies a latched INIT (`44_host_interface.md` R342): ApplyInit leaves a legal state in IDLE
with an empty latch, so the rest of the TICK is what `IdleYieldsTimesOutOrStarts` says of that state. -/

namespace Sys2Proof.Machine

/-- An INIT is due while one is latched on an idle bus or in the gap, with no host frame pending (R342). -/
theorem initDue_iff {s : State} :
    initDue s = true ↔ s.pinit.valid = true ∧ (s.seq.st = .idle ∨ s.seq.st = .interframeGap) ∧
      ¬ (s.tx.pending = true ∧ s.tx.kind = .host) := by
  simp [initDue, and_assoc, imp_iff_not_or]

/-- In a legal state an INIT is due only where the line is released (`10_state.md` R44, 4). -/
theorem Legal.released_of_initDue {s : State} (legal : Legal s) (due : initDue s = true) : s.line.driveLow = false := by
  obtain ⟨-, -, drive, -⟩ := legal_iff.mp legal
  obtain ⟨-, st, -⟩ := initDue_iff.mp due
  rcases st with st | st <;> simpa [DriveOk, st] using drive

/-- ApplyInit keeps R44: what it leaves pending is a fresh poll of an allocation that has begun. -/
theorem Legal.applyInit {s : State} (legal : Legal s) (due : initDue s = true) (now : Nat) :
    Legal (applyInit now s) := by
  obtain ⟨codes, -⟩ := legal_iff.mp legal
  obtain ⟨-, ph, -, outcome⟩ := codesOk_iff.mp codes
  have released := legal.released_of_initDue due
  have idle : SeqOk { s.seq with st := .idle, role := .none } := ⟨nofun, nofun, nofun, fun _ => rfl⟩
  rcases applyInit_cases now s with ⟨-, applied⟩ | ⟨c, rest, -, applied⟩ <;> rw [applied]
  · exact legal_iff.mpr ⟨codesOk_iff.mpr ⟨⟨nofun, nofun⟩, ph, nofun, outcome⟩, idle,
      fun drives => absurd (released.symm.trans drives) nofun, fun _ => nofun, fun _ => nofun, nofun⟩
  · exact legal_iff.mpr ⟨codesOk_iff.mpr ⟨⟨nofun, nofun⟩, ph, nofun, outcome⟩, idle,
      fun drives => absurd (released.symm.trans drives) nofun,
      fun ⟨attempts, frame, _⟩ _ => ⟨le_rfl, frame, attempts⟩, fun _ _ => rfl, nofun⟩

/-- A TICK that applies an INIT is the TICK of the state ApplyInit leaves (R170). -/
theorem tickAt_eq_tickAt_applyInit {now : Nat} {lineIn : Bool} {s : State} (legal : Legal s) (due : initDue s = true) :
    tickAt now lineIn s = tickAt now lineIn (applyInit now s) := by
  obtain ⟨seq, -⟩ := applyInit_seq_tAttempt now s
  have runs : stuck s = false := by
    obtain ⟨-, st, -⟩ := initDue_iff.mp due
    refine stuck_eq_false.mpr ⟨legal, ?_⟩
    rcases st with st | st <;> rw [st] <;> exact nofun
  have runs' : stuck (applyInit now s) = false :=
    stuck_eq_false.mpr ⟨legal.applyInit due now, by rw [seq]; exact nofun⟩
  have applied : initDue (applyInit now s) = false := by
    rw [initDue, applyInit_pinit_valid]
    rfl
  rw [tickAt_served runs, tickAt_served runs', if_pos due, if_neg (by simp [applied])]

/-- So it is R173's handler on that state, after the events of ApplyInit itself. -/
theorem exec_tick_initDue {now : Nat} {lineIn : Bool} {s : State} (later : s.time.tLast < now) (legal : Legal s)
    (due : initDue s = true) :
    exec (.tick now lineIn) s = .next
      { idleNext now lineIn (applyInit now (clearPorts s)) with
        events := (applyInit now (clearPorts s)).events ++
          (idleNext now lineIn (applyInit now (clearPorts s))).events } := by
  have cleared : Legal (applyInit now (clearPorts s)) := Legal.applyInit (s := clearPorts s) legal due now
  obtain ⟨-, -, -, -, response, -, -, tLast⟩ := applyInit_frame now (clearPorts s)
  obtain ⟨seq, -⟩ := applyInit_seq_tAttempt now (clearPorts s)
  have empty : NoInitDue (applyInit now (clearPorts s)) := fun latched => by
    rw [applyInit_pinit_valid] at latched; cases latched
  have idle := idleYieldsTimesOutOrStarts now lineIn _ (tLast.trans_lt later) cleared empty (by rw [seq])
  refine (execTick_admitted lineIn later).trans (congrArg Host.Outcome.next ?_)
  rw [tickAt_eq_tickAt_applyInit (s := clearPorts s) legal due]
  exact tickAt_of_exec response idle

/-- With nothing pending the IDLE handler reports nothing (R173). -/
theorem idleNext_events_of_free {s : State} (now : Nat) (lineIn : Bool) (free : s.tx.pending = false) :
    (idleNext now lineIn s).events = [] := by
  have idle : ¬ s.tx.pending = true := by simp [free]
  unfold idleNext
  rw [if_neg (mt And.left idle), if_neg (mt And.left idle)]
  split_ifs <;> rfl

/-- Settles O40: ApplyInit polls the first candidate or, with none, reports the failed allocation before an IDLE handler
that finds nothing pending. -/
theorem latchedInitIsApplied : Obligations.LatchedInitIsApplied := by
  intro now lineIn s later legal valid st noHost
  have due : initDue s = true := initDue_iff.mpr ⟨valid, st, noHost⟩
  refine ⟨fun empty => ?_, fun c rest listed => ?_⟩ <;> rw [exec_tick_initDue later legal due] <;>
    rcases applyInit_cases now (clearPorts s) with ⟨none, applied⟩ | ⟨c', rest', some, applied⟩
  · rw [applied, idleNext_events_of_free now lineIn rfl]
    rfl
  · rw [clearPorts_params, clearPorts_pinit, empty] at some
    cases some
  · rw [clearPorts_params, clearPorts_pinit, listed] at none
    cases none
  · rw [clearPorts_params, clearPorts_pinit, listed] at some
    cases some
    rw [applied]
    rfl

end Sys2Proof.Machine
end

section
/-! SUPPORT. A latched INIT that waits (`44_host_interface.md` R342): no operation and no handler reads the latch or
writes it, so a TICK that applies no INIT does with one latch what it does with any other
(`InitWaits.tickAt_withLatch`). -/

namespace Sys2Proof.Machine

/-! ### Another latch -/

/-- The state with `latch` in the place of its latch. -/
def withLatch (latch : PInitRegs) (s : State) : State := { s with pinit := latch }

section
variable (latch : PInitRegs) (s : State)

@[simp] theorem withLatch_params : (withLatch latch s).params = s.params := rfl

/-! An operation on the state with another latch is the operation on the state, with that latch afterwards. -/

theorem withLatch_setPhase (ph : Phase) : withLatch latch (setPhase ph s) = setPhase ph (withLatch latch s) := rfl

theorem withLatch_goTo (st : EngineState) (role : Role) :
    withLatch latch (goTo st role s) = goTo st role (withLatch latch s) := rfl

theorem withLatch_setDrive (now : Nat) (v : Bool) :
    withLatch latch (setDrive now v s) = setDrive now v (withLatch latch s) := by
  rw [setDrive_eq, setDrive_eq]; rfl

theorem withLatch_startBit (now : Nat) (st : EngineState) :
    withLatch latch (startBit now st s) = startBit now st (withLatch latch s) := by
  rw [startBit_eq, startBit_eq]; rfl

theorem withLatch_rxError (now : Nat) : withLatch latch (rxError now s) = rxError now (withLatch latch s) := by
  rw [rxError, withLatch_setPhase, withLatch_goTo, withLatch_setDrive]; rfl

theorem withLatch_stampFree (p : Sample) : withLatch latch (stampFree p s) = stampFree p (withLatch latch s) :=
  apply_ite (withLatch latch) ..

theorem withLatch_epilogue (p : Sample) : withLatch latch (epilogue p s) = epilogue p (withLatch latch s) := rfl

theorem withLatch_nextCandidate (now : Nat) :
    withLatch latch (nextCandidate now s) = nextCandidate now (withLatch latch s) := by
  unfold nextCandidate
  dsimp only [advanceIdx_params, advanceIdx_cfg, advanceIdx_session, withLatch]
  cases (s.params.candidatesFor s.cfg.devType)[(s.session.candIdx + 1).toNat]? <;> rfl

theorem withLatch_attemptEnd (now : Nat) (o : TxOutcome) :
    withLatch latch (attemptEnd now o s) = attemptEnd now o (withLatch latch s) := by
  cases kind : s.tx.kind with
  | poll =>
    rw [attemptEnd_of_poll now o kind, attemptEnd_of_poll (s := withLatch latch s) now o kind]
    simp only [apply_ite (withLatch latch), withLatch_nextCandidate]
    rfl
  | host =>
    rw [attemptEnd_of_host now o kind, attemptEnd_of_host (s := withLatch latch s) now o kind]
    simp only [apply_ite (withLatch latch)]
    rfl

theorem withLatch_recordRxBit (v : Bool) :
    withLatch latch (recordRxBit v s) = recordRxBit v (withLatch latch s) := by
  rw [recordRxBit_eq, recordRxBit_eq]; rfl

theorem withLatch_recordRxAck (now : Nat) (ack : Bool) :
    withLatch latch (recordRxAck now ack s) = recordRxAck now ack (withLatch latch s) := by
  simp only [recordRxAck, apply_ite (withLatch latch), withLatch_rxError]
  rfl

/-- No handler reads the latch, and none writes it: each is choices and operations that the latch passes through. -/
theorem withLatch_runHandler (h : Handler) (p : Sample) :
    withLatch latch (runHandler h p s) = runHandler h p (withLatch latch s) := by
  cases h <;> dsimp only [runHandler]
  case idle => simp only [handleIdle, apply_ite (withLatch latch), withLatch_attemptEnd, withLatch_startBit]; rfl
  case gap => simp only [handleGap, apply_ite (withLatch latch)]; rfl
  case awaitLow => simp only [handleAwaitLow, apply_ite (withLatch latch), withLatch_rxError]; rfl
  case awaitTotal => simp only [handleAwaitTotal, apply_ite (withLatch latch), withLatch_rxError]; rfl
  case sendStart =>
    simp only [handleSendStart, apply_ite (withLatch latch), withLatch_setPhase, withLatch_goTo, withLatch_setDrive,
      withLatch_attemptEnd]
    rfl
  case sendStartEnd => simp only [handleSendStartEnd, apply_ite (withLatch latch), withLatch_startBit]; rfl
  case txBitLow => simp only [handleTxBitLow, apply_ite (withLatch latch), withLatch_setPhase, withLatch_setDrive]; rfl
  case txBitSample =>
    simp only [handleTxBitSample, apply_ite (withLatch latch), withLatch_setPhase, withLatch_attemptEnd]
    rfl
  case txBitEnd => simp only [handleTxBitEnd, apply_ite (withLatch latch), withLatch_startBit]; rfl
  case txAckLow => simp only [handleTxAckLow, apply_ite (withLatch latch), withLatch_setPhase, withLatch_setDrive]; rfl
  case txAckSample => simp only [handleTxAckSample, apply_ite (withLatch latch), withLatch_attemptEnd]; rfl
  case txAckEnd => simp only [handleTxAckEnd, apply_ite (withLatch latch), withLatch_startBit]; rfl
  case rxBitLow =>
    simp only [handleRxBitLow_eq, withLatch_params]
    cases classify s.params p.el <;>
      simp only [Option.elim, apply_ite (withLatch latch), withLatch_setPhase, withLatch_rxError,
        withLatch_recordRxBit] <;> rfl
  case rxBitEnd => simp only [handleRxBitEnd, apply_ite (withLatch latch), withLatch_rxError, withLatch_setDrive]; rfl
  case rxAckLow =>
    simp only [handleRxAckLow_eq, withLatch_params]
    cases classify s.params p.el <;>
      simp only [Option.elim, apply_ite (withLatch latch), withLatch_setDrive, withLatch_rxError,
        withLatch_recordRxAck] <;> rfl
  case rxAckEnd => simp only [handleRxAckEnd, apply_ite (withLatch latch), withLatch_rxError]; rfl

theorem withLatch_serveTick (now : Nat) (lineIn : Bool) :
    withLatch latch (serveTick now lineIn s) = serveTick now lineIn (withLatch latch s) := by
  rw [serveTick_eq, serveTick_eq, withLatch_epilogue, withLatch_runHandler, withLatch_stampFree]
  rfl

end

/-! ### Where R342 makes it wait -/

/-- R342 makes any latched INIT wait: a host frame is pending, or the engine is in neither state that applies one. -/
abbrev InitWaits (s : State) : Prop :=
  (s.tx.pending = true ∧ s.tx.kind = .host) ∨ (s.seq.st ≠ .idle ∧ s.seq.st ≠ .interframeGap)

theorem InitWaits.initDue_eq_false {s : State} (waits : InitWaits s) : initDue s = false := by
  rcases waits with host | ⟨notIdle, notGap⟩
  · exact initDue_of_noInitDue fun _ => host
  · exact initDue_of_busy notIdle notGap

/-- There a TICK that runs a handler runs it on the state as it is. -/
theorem InitWaits.tickAt_served {s : State} (waits : InitWaits s) (runs : stuck s = false) (now : Nat) (lineIn : Bool) :
    tickAt now lineIn s = serveTick now lineIn s := by
  rw [Machine.tickAt_served runs, if_neg (by simp [waits.initDue_eq_false])]

/-- There a TICK does with any latch what it does with another. -/
theorem InitWaits.tickAt_withLatch {s : State} (waits : InitWaits s) (latch : PInitRegs) (now : Nat) (lineIn : Bool) :
    tickAt now lineIn (withLatch latch s) = withLatch latch (tickAt now lineIn s) := by
  have same : stuck (withLatch latch s) = stuck s := stuck_pinit latch s
  cases halted : stuck s with
  | true =>
    rw [tickAt_stuck halted, tickAt_stuck (same.trans halted), withLatch_epilogue, withLatch_stampFree]
    rfl
  | false =>
    have waits' : InitWaits (withLatch latch s) := waits
    rw [waits.tickAt_served halted, waits'.tickAt_served (same.trans halted), withLatch_serveTick]

/-- There a TICK writes neither the latch nor the configuration. -/
theorem InitWaits.tickAt_pinit_cfg {s : State} (waits : InitWaits s) (now : Nat) (lineIn : Bool) :
    (tickAt now lineIn s).pinit = s.pinit ∧ (tickAt now lineIn s).cfg = s.cfg := by
  cases halted : stuck s with
  | true => simp [tickAt_stuck halted]
  | false => rw [waits.tickAt_served halted]; exact serveTick_pinit_cfg now lineIn s

/-- A handler leaves a pending host frame as it is, or ends it with its own TX_COMPLETE (R298, R349). -/
theorem HandlerEffect.host_frame {h : Handler} {now : Nat} {t s : State} (effect : HandlerEffect h now t s)
    (silent : s.events = []) (pending : s.tx.pending = true) (host : s.tx.kind = .host) :
    (t.tx.pending = true ∧ t.tx.kind = .host ∧ t.tx.buf = s.tx.buf ∧ t.tx.len = s.tx.len) ∨
      ∃ acks ok o, t.events = [.txComplete (txBytes s.tx) acks ok o] := by
  cases effect with
  | goesOn same => exact .inl ⟨same.pending.trans pending, same.kind.trans host, same.buf, same.len⟩
  | delivered u bytes acks ack slot same report =>
    rw [report]
    exact .inl ⟨same.pending.trans pending, same.kind.trans host, same.buf, same.len⟩
  | ended u o _ same attempt =>
    have frame : txBytes u.tx = txBytes s.tx := by rw [txBytes, txBytes, same.buf, same.len]
    have none : u.events = [] := same.events.trans silent
    rw [attempt, attemptEnd_of_host now o (same.kind.trans host), ← frame]
    split_ifs
    · exact .inr ⟨_, _, _, (completeTx_events ..).trans (congrArg (· ++ _) none)⟩
    · exact .inr ⟨_, _, _, (completeTx_events ..).trans (congrArg (· ++ _) none)⟩
    · exact .inl ⟨same.pending.trans pending, same.kind.trans host, same.buf, same.len⟩

/-- Settles O41: where an INIT waits, the TICK is that of any other latch, and its handler leaves or completes the host
frame. -/
theorem latchedInitWaits : Obligations.LatchedInitWaits := by
  intro now lineIn s t waits tick
  obtain ⟨later, rfl⟩ := execTick_eq_next tick
  have waits' : InitWaits (clearPorts s) := waits
  obtain ⟨latch, cfg⟩ := waits'.tickAt_pinit_cfg now lineIn
  refine ⟨latch, cfg, fun p => ?_, fun pending host => ?_⟩
  · exact (execTick_admitted (s := withLatch p s) lineIn later).trans
      (congrArg Host.Outcome.next (waits'.tickAt_withLatch p now lineIn))
  · cases halted : stuck (clearPorts s) with
    | true =>
      rw [tickAt_stuck halted]
      exact .inl (by simp [pending, host])
    | false =>
      rw [waits'.tickAt_served halted]
      exact (serveTick_effect (s := clearPorts s) now lineIn fun _ => pending).host_frame rfl pending host

end Sys2Proof.Machine
end

section
/-! SUPPORT. Where READY comes from (`44_host_interface.md` R347, `43_arbiter.md` R305): only a poll that ends in NAK
claims its candidate, and no TICK that applies an INIT can end in one. -/

namespace Sys2Proof.Machine

section
variable {la : LogAddr}

/-- NextCandidate reports no claim (R304). -/
theorem nextCandidate_ready (now : Nat) (s : State) :
    .ready la ∈ (nextCandidate now s).events ↔ .ready la ∈ s.events := by
  rcases nextCandidate_cases now s with ⟨-, next⟩ | ⟨c, -, -, next⟩ <;> simp [next]

/-- Neither does ApplyInit (R342). -/
theorem applyInit_ready (now : Nat) (s : State) : .ready la ∈ (applyInit now s).events ↔ .ready la ∈ s.events := by
  rcases applyInit_cases now s with ⟨-, applied⟩ | ⟨c, rest, -, applied⟩ <;> simp [applied]

/-- An attempt's end reports READY only for a poll that was not acknowledged, with the address it polled (R298, R305). -/
theorem attemptEnd_ready {now : Nat} {o : TxOutcome} {s : State} (fresh : .ready la ∉ s.events)
    (ready : .ready la ∈ (attemptEnd now o s).events) :
    s.tx.kind = .poll ∧ o = .nak ∧ lowNibble (txHeader s.tx) = la ∧
      attemptEnd now o s = claim la (recordOutcome o s) := by
  rcases attemptEnd_cases now o s with ⟨-, -, ends⟩ | ⟨poll, nak, ends⟩ | ⟨-, -, -, -, ends⟩ | ⟨-, -, ends⟩ |
    ⟨-, -, -, ends⟩ | ⟨-, -, -, ends⟩ <;> rw [ends] at ready ⊢
  · rw [nextCandidate_ready] at ready
    exact absurd ready fresh
  · rw [claim, emit_events, List.mem_append, List.mem_singleton] at ready
    cases ready.resolve_left fresh
    exact ⟨poll, nak, rfl, rfl⟩
  · rw [nextCandidate_ready] at ready
    exact absurd ready fresh
  all_goals exact absurd (by simpa [completeTx] using ready) fresh

/-- The IDLE handler ends an attempt in TIMEOUT alone, which claims nothing (R173). -/
theorem handleIdle_ready {p : Sample} {s : State} (ready : .ready la ∈ (handleIdle p s).events) :
    .ready la ∈ s.events := by
  by_contra fresh
  unfold handleIdle at ready
  split_ifs at ready
  · exact fresh ready
  · obtain ⟨-, nak, -⟩ := attemptEnd_ready fresh ready
    cases nak
  · rw [startBit_events] at ready
    exact fresh ready
  · exact fresh ready

/-- From `s` to `t` the poll of `la` was not acknowledged, and `la` is claimed (R305). -/
structure ClaimsPolled (la : LogAddr) (t s : State) : Prop where
  address : t.session.la = la
  alloc : t.session.alloc = .claimed
  outcome : t.tx.outcome = .nak
  poll : s.tx.kind = .poll
  candidate : la ∈ s.params.candidatesFor s.cfg.devType
  free : t.tx.pending = false

/-- A handler reports READY only where it claims the candidate of the pending poll. -/
theorem HandlerEffect.claimsPolled {h : Handler} {now : Nat} {t s : State} (effect : HandlerEffect h now t s)
    (link : LinkOk s) (fresh : .ready la ∉ s.events) (ready : .ready la ∈ t.events) : ClaimsPolled la t s := by
  cases effect with
  | goesOn same => exact absurd (same.events ▸ ready) fresh
  | delivered u bytes acks ack slot same report =>
    rw [report, emit_events, same.events] at ready
    exact absurd (by simpa using ready) fresh
  | ended u o pending same attempt =>
    subst attempt
    obtain ⟨poll, rfl, polled, claims⟩ := attemptEnd_ready (same.events.symm ▸ fresh) ready
    have kind : s.tx.kind = .poll := same.kind.symm.trans poll
    have header : txHeader u.tx = txHeader s.tx := by rw [txHeader, txHeader, same.buf]
    have listed := List.mem_of_getElem? (link.candidate kind pending)
    rw [← header, polled] at listed
    rw [claims]
    exact ⟨rfl, rfl, rfl, kind, listed, rfl⟩

/-- A TICK that applies an INIT claims nothing: the handler after it is that of IDLE. -/
theorem RunInvariant.not_ready_of_initDue {s : State} (inv : RunInvariant s) (due : initDue s = true)
    (fresh : .ready la ∉ s.events) (now : Nat) (lineIn : Bool) : .ready la ∉ (Machine.tickAt now lineIn s).events := by
  obtain ⟨seq, -⟩ := applyInit_seq_tAttempt now s
  have idle : (applyInit now s).seq.st = .idle := by rw [seq]
  rw [tickAt_served inv.stuck_eq_false, if_pos due, serveTick_eq, epilogue_events, idle]
  intro ready
  have before := handleIdle_ready ready
  rw [stampFree_events, applyInit_ready] at before
  exact fresh before

end

/-- Settles O49: READY is reported by a handler that claims the candidate of the pending poll. -/
theorem readyNamesClaimedAddress : Obligations.ReadyNamesClaimedAddress := by
  intro now lineIn s t la inv tick ready
  obtain ⟨-, rfl⟩ := execTick_eq_next tick
  have cleared : RunInvariant (clearPorts s) := inv.withPorts ..
  cases due : initDue (clearPorts s) with
  | true => exact absurd ready (cleared.not_ready_of_initDue due List.not_mem_nil now lineIn)
  | false =>
    obtain ⟨address, alloc, outcome, poll, candidate, free⟩ :=
      (cleared.tickAt_effect now lineIn due).claimsPolled (runInvariant_iff.mp cleared).link List.not_mem_nil ready
    exact ⟨address, alloc, outcome, poll, candidate, free⟩

end Sys2Proof.Machine
end

section
/-! SUPPORT. How many events a TICK reports (`60_exceptions.md` R387), in every state: a handler reports at most one, and
after an INIT that has reported its failed allocation the IDLE handler finds nothing pending to report. -/

namespace Sys2Proof.Machine

/-- From `s` to `t` at most one event is reported, after those already there. -/
def ReportsAtMostOne (t s : State) : Prop := t.events = s.events ∨ ∃ e, t.events = s.events ++ [e]

/-- Where nothing has been reported before it, the end of an attempt reports at most once (R298). -/
theorem attemptEnd_reportsAtMostOne (now : Nat) (o : TxOutcome) {u s : State} (silent : u.events = s.events) :
    ReportsAtMostOne (attemptEnd now o u) s := by
  unfold ReportsAtMostOne
  rw [← silent]
  exact attemptEnd_events now o u

theorem HandlerEffect.reportsAtMostOne {h : Handler} {now : Nat} {t s : State} (effect : HandlerEffect h now t s) :
    ReportsAtMostOne t s := by
  cases effect with
  | goesOn same => exact .inl same.events
  | delivered u bytes acks ack slot same report =>
    rw [report]
    exact .inr ⟨_, (emit_events ..).trans (congrArg (· ++ _) same.events)⟩
  | ended u o pending same attempt =>
    rw [attempt]
    exact attemptEnd_reportsAtMostOne now o same.events

/-- A sending core's handler reports only the end of its attempt, even in a state with nothing pending, which no run
reaches (R177, R181, R184). -/
theorem runHandler_reportsAtMostOne_of_endsSending {h : Handler} (ends : h ∈ endsSending) (p : Sample) (s : State) :
    ReportsAtMostOne (runHandler h p s) s := by
  simp only [endsSending, List.mem_cons, List.not_mem_nil, or_false] at ends
  rcases ends with rfl | rfl | rfl <;> dsimp only [runHandler]
  case inl =>
    unfold handleSendStart
    split_ifs
    · exact .inl (by simp)
    · exact .inl rfl
    · exact .inl rfl
    · exact attemptEnd_reportsAtMostOne _ _ (by simp)
    · exact .inl rfl
  case inr.inl =>
    unfold handleTxBitSample
    dsimp only
    split_ifs
    · exact attemptEnd_reportsAtMostOne _ _ rfl
    · exact attemptEnd_reportsAtMostOne _ _ rfl
    all_goals exact .inl rfl
  case inr.inr =>
    unfold handleTxAckSample
    dsimp only
    split_ifs
    · exact attemptEnd_reportsAtMostOne _ _ rfl
    · exact attemptEnd_reportsAtMostOne _ _ rfl
    all_goals exact .inl rfl

theorem runHandler_reportsAtMostOne (h : Handler) (p : Sample) (s : State) :
    ReportsAtMostOne (runHandler h p s) s := by
  by_cases ends : h ∈ endsSending
  · exact runHandler_reportsAtMostOne_of_endsSending ends p s
  · exact (runHandler_effect fun sends => absurd sends ends).reportsAtMostOne

/-- Sampling and epilogue report nothing (R170). -/
theorem serveTick_reportsAtMostOne (now : Nat) (lineIn : Bool) (s : State) :
    ReportsAtMostOne (serveTick now lineIn s) s := by
  have handled := runHandler_reportsAtMostOne (selectHandler s.seq.st s.seq.role s.seq.ph) (sampleOf now lineIn s)
    (stampFree (sampleOf now lineIn s) s)
  unfold ReportsAtMostOne at handled ⊢
  rwa [stampFree_events] at handled

/-- In IDLE with nothing pending a TICK's handler reports nothing (R173). -/
theorem serveTick_events_of_free {s : State} (now : Nat) (lineIn : Bool) (idle : s.seq.st = .idle)
    (free : s.tx.pending = false) : (serveTick now lineIn s).events = s.events := by
  have selected : selectHandler s.seq.st s.seq.role s.seq.ph = .idle := by rw [idle]; rfl
  have effect := serveTick_effect (s := s) now lineIn (by simp [selected, endsSending])
  exact (effect.same_of_free free (by simp [selected])).events

/-- ApplyInit and the IDLE handler after it do not both report: ApplyInit reports a failed allocation, which leaves nothing
pending, or arms a poll without a report (R342). -/
theorem serveTick_applyInit_reportsAtMostOne (now : Nat) (lineIn : Bool) (s : State) :
    ReportsAtMostOne (serveTick now lineIn (applyInit now s)) s := by
  rcases applyInit_cases now s with ⟨-, applied⟩ | ⟨c, rest, -, applied⟩ <;> rw [applied]
  · exact .inr ⟨.allocFailed, serveTick_events_of_free now lineIn rfl rfl⟩
  · exact serveTick_reportsAtMostOne now lineIn (armPoll now c (beginPolling (releaseSession s)))

theorem tickAt_reportsAtMostOne (now : Nat) (lineIn : Bool) (s : State) :
    ReportsAtMostOne (tickAt now lineIn s) s := by
  cases halted : stuck s with
  | true => exact .inl (by simp [tickAt_stuck halted])
  | false =>
    rw [tickAt_served halted]
    split_ifs with due
    · exact serveTick_applyInit_reportsAtMostOne now lineIn s
    · exact serveTick_reportsAtMostOne now lineIn s

/-- Settles O22: a TICK starts on cleared ports, so its own report is all that stands on the event port. -/
theorem tickEmitsAtMostOneEvent : Obligations.TickEmitsAtMostOneEvent := by
  intro now lineIn s t tick
  obtain ⟨-, rfl⟩ := execTick_eq_next tick
  rcases tickAt_reportsAtMostOne now lineIn (clearPorts s) with events | ⟨e, events⟩ <;> simp [events]

end Sys2Proof.Machine
end

section
/-! SUPPORT. RESET and the core before its first INIT (`70_reset_and_hazards.md` R420, R421). Before INIT nothing is
pending and nothing latched, so a TICK is one of the handlers that only listen (`BeforeInit.tickAt_eq`); none of them
drives the line, and the only one that reports delivers a broadcast. -/

namespace Sys2Proof.Machine

/-! ### RESET -/

/-- Settles O8: each register stands in `resetRegs` with R420's value. -/
theorem resetWritesEveryRegister : Obligations.ResetWritesEveryRegister := fun _ _ => rfl

/-- Settles O9: besides the registers RESET writes, a state holds only the parameters and the waiting transfers. -/
theorem powerUpIsReset : Obligations.PowerUpIsReset := by
  intro s params input
  rw [resetWritesEveryRegister 0 s, params, input]
  rfl

/-- RESET leaves the state before INIT. -/
theorem beforeInit_resetRegs (now0 : Nat) (s : State) : BeforeInit (resetRegs now0 s) :=
  ⟨rfl, rfl, rfl, rfl, rfl, rfl, nofun, nofun⟩

/-! ### The handlers that only listen -/

/-- The handlers R172 selects for a core that is not sending, and the empty one of R193. -/
def listeningHandlers : List Handler :=
  [.none, .idle, .gap, .awaitLow, .awaitTotal, .rxBitLow, .rxBitEnd, .rxAckLow, .rxAckEnd]

/-- Only SEND_START and the role TX lead to the other handlers (R172). -/
theorem selectHandler_mem_listeningHandlers {st : EngineState} {role : Role} (notTx : role ≠ .tx)
    (notStart : st ≠ .sendStart) (ph : Phase) : selectHandler st role ph ∈ listeningHandlers := by
  cases role with
  | tx => contradiction
  | none | rx | code3 =>
    cases st with
    | sendStart => contradiction
    | idle | interframeGap | awaitStart | bitPeriod | ackWindow | code6 | code7 => cases ph <;> decide

/-- None of them is a handler that ends the core's own sending, so what it does to a transmission is
`HandlerEffect`'s. -/
theorem runHandler_effect_of_listening {h : Handler} (listening : h ∈ listeningHandlers) (p : Sample) (s : State) :
    HandlerEffect h p.now (runHandler h p s) s := by
  have apart : ∀ g ∈ listeningHandlers, g ∉ endsSending := by decide
  exact runHandler_effect fun sends => absurd sends (apart h listening)

/-- The line is released and the core is not sending. -/
structure OnlyListens (s : State) : Prop where
  released : s.line.driveLow = false
  notTx : s.seq.role ≠ .tx
  notStart : s.seq.st ≠ .sendStart

theorem OnlyListens.setPhase {s : State} (h : OnlyListens s) (ph : Phase) : OnlyListens (setPhase ph s) :=
  ⟨h.released, h.notTx, h.notStart⟩

theorem OnlyListens.enterAwaitStart {s : State} (h : OnlyListens s) (now : Nat) : OnlyListens (enterAwaitStart now s) :=
  ⟨h.released, nofun, nofun⟩

theorem onlyListens_rxError (now : Nat) (s : State) : OnlyListens (rxError now s) := by
  constructor <;> simp

theorem OnlyListens.recordRxBit {s : State} (h : OnlyListens s) (v : Bool) : OnlyListens (recordRxBit v s) := by
  rw [recordRxBit_eq]
  exact ⟨h.released, h.notTx, h.notStart⟩

theorem OnlyListens.recordRxAck {s : State} (h : OnlyListens s) (now : Nat) (ack : Bool) :
    OnlyListens (recordRxAck now ack s) := by
  unfold Machine.recordRxAck
  dsimp only
  split_ifs
  · exact ⟨h.released, h.notTx, nofun⟩
  · exact ⟨h.released, h.notTx, nofun⟩
  · exact ⟨h.released, nofun, nofun⟩
  · exact onlyListens_rxError ..
  · exact ⟨h.released, h.notTx, h.notStart⟩

/-- With nothing to send and nothing to acknowledge, a listening handler goes on listening (R173 to R176, R187 to
R190). -/
theorem OnlyListens.runHandler {h : Handler} {s : State} (listens : OnlyListens s) (free : s.tx.pending = false)
    (silent : s.rx.ackMe = false) (listening : h ∈ listeningHandlers) (p : Sample) :
    OnlyListens (runHandler h p s) := by
  cases h <;> dsimp only [Machine.runHandler]
  case none => exact listens
  case idle =>
    simp only [handleIdle, free, Bool.false_and, Bool.false_eq_true, if_false]
    split_ifs
    · exact listens.enterAwaitStart p.now
    · exact listens
  case gap =>
    unfold handleGap
    split_ifs
    · exact listens.enterAwaitStart p.now
    · exact ⟨listens.released, nofun, nofun⟩
    · exact listens
  case awaitLow =>
    unfold handleAwaitLow
    split_ifs
    · exact listens.setPhase .fullBitWait
    · exact onlyListens_rxError ..
    · exact onlyListens_rxError ..
    · exact listens
  case awaitTotal =>
    unfold handleAwaitTotal
    split_ifs
    · exact ⟨listens.released, listens.notTx, nofun⟩
    · exact onlyListens_rxError ..
    · exact onlyListens_rxError ..
    · exact listens
  case rxBitLow =>
    rw [handleRxBitLow_eq]
    split_ifs
    · cases classify s.params p.el with
      | none => exact onlyListens_rxError ..
      | some v => exact (listens.recordRxBit v).setPhase .fullBitWait
    · exact onlyListens_rxError ..
    · exact listens
  case rxBitEnd =>
    simp only [handleRxBitEnd, silent, Bool.false_eq_true, if_false]
    split_ifs
    · exact ⟨listens.released, listens.notTx, nofun⟩
    · exact ⟨listens.released, listens.notTx, listens.notStart⟩
    · exact onlyListens_rxError ..
    · exact onlyListens_rxError ..
    · exact listens
  case rxAckLow =>
    rw [handleRxAckLow_eq]
    split_ifs
    · exact ⟨by simp, by simpa using listens.notTx, by simpa using listens.notStart⟩
    · cases classify s.params p.el with
      | none => exact onlyListens_rxError ..
      | some v => exact listens.recordRxAck ..
    · exact onlyListens_rxError ..
    · exact listens
  case rxAckEnd =>
    unfold handleRxAckEnd
    split_ifs
    · exact ⟨listens.released, listens.notTx, nofun⟩
    · exact onlyListens_rxError ..
    · exact onlyListens_rxError ..
    · exact listens
  all_goals simp [listeningHandlers] at listening

/-! ### Nothing to acknowledge -/

/-- A core without an address decides to acknowledge no frame (R256). -/
theorem decodedBit_ackMe_of_unclaimed {g : SessionRegs} (unclaimed : g.alloc ≠ .claimed) (q : SeqRegs) (v : Bool)
    {r : RxRegs} (silent : r.ackMe = false) : (decodedBit g q v r).ackMe = false := by
  unfold decodedBit
  split_ifs <;> simp [silent, unclaimed]

/-- So no listening handler of such a core sets `ack_me` (R176, R187). -/
theorem runHandler_ackMe_of_unclaimed {h : Handler} {s : State} (unclaimed : s.session.alloc ≠ .claimed)
    (silent : s.rx.ackMe = false) (listening : h ∈ listeningHandlers) (p : Sample) :
    (runHandler h p s).rx.ackMe = false := by
  by_cases total : h = .awaitTotal
  · subst total
    dsimp only [runHandler, handleAwaitTotal]
    split_ifs <;> simp [silent]
  by_cases bit : h = .rxBitLow
  · subst bit
    dsimp only [runHandler]
    rw [handleRxBitLow_eq]
    cases classify s.params p.el <;> split_ifs <;>
      simp [recordRxBit_eq, silent, decodedBit_ackMe_of_unclaimed unclaimed]
  have notSample : h ≠ .txBitSample := by
    rintro rfl
    simp [listeningHandlers] at listening
  rw [runHandler_ackMe total notSample bit, silent]

/-! ### Broadcasts only -/

/-- The event delivers a broadcast frame. -/
def DeliversBroadcast (e : Event) : Prop :=
  ∃ bytes acks ack, e = .rxComplete bytes acks ack ∧ headerDst (bytes.getD 0 0) = 15

/-- The slot's ack stands in the receive record whatever it decides (R189). -/
theorem recordRxAck_rx (now : Nat) (ack : Bool) (s : State) :
    (recordRxAck now ack s).rx = ackRecorded s.seq.blk ack s.rx := by
  unfold recordRxAck
  dsimp only
  split_ifs <;> simp [ackRecorded]

/-- The bytes of that record begin with the header, for `rx_len` counts at least one block. -/
theorem rxBytes_ackRecorded_header (blk : BitVec 4) (ack : Bool) (r : RxRegs) :
    (rxBytes (ackRecorded blk ack r)).getD 0 0 = rxHeader r := by
  rw [rxBytes, ackRecorded_len, rxHeader, List.getD_eq_getElem?_getD, List.getElem?_take_of_lt (Nat.succ_pos _),
    List.getD_eq_getElem?_getD]
  rfl

/-- The handler of a received ACK slot delivers a frame under its own header. -/
theorem header_of_handleRxAckLow {p : Sample} {s : State} {bytes : List Byte} {acks : List Bool} {ack : Bool}
    (silent : .rxComplete bytes acks ack ∉ s.events)
    (delivered : .rxComplete bytes acks ack ∈ (handleRxAckLow p s).events) : bytes.getD 0 0 = rxHeader s.rx := by
  rw [handleRxAckLow_eq] at delivered
  generalize classify s.params p.el = decoded at delivered
  split_ifs at delivered
  · exact absurd (by simpa using delivered) silent
  · cases decoded with
    | none => exact absurd (by simpa using delivered) silent
    | some v =>
      obtain ⟨-, -, frame, -⟩ := delivers_of_recordRxAck silent delivered
      rw [frame, recordRxAck_rx, rxBytes_ackRecorded_header]
  · exact absurd (by simpa using delivered) silent
  · exact absurd delivered silent

/-! ### One TICK before INIT -/

theorem BeforeInit.onlyListens {s : State} (before : BeforeInit s) : OnlyListens s := by
  obtain ⟨notTx, notStart⟩ := before.receiving
  exact ⟨before.released, notTx, notStart⟩

theorem BeforeInit.unclaimed {s : State} (before : BeforeInit s) : s.session.alloc ≠ .claimed := by
  rw [before.alloc]
  exact nofun

/-- Before INIT the only frames a core wants are broadcasts (R259). -/
theorem BeforeInit.broadcast_of_wanted {s : State} (before : BeforeInit s) {header : Byte}
    (heard : wanted s.cfg s.session header = true) : headerDst header = 15 := by
  rcases (wanted_iff ..).mp heard with prom | broadcast | ⟨claimed, -⟩
  · rw [before.prom] at prom
    cases prom
  · exact broadcast
  · exact absurd claimed before.unclaimed

/-- With no attempt to end, whatever a handler does leaves the session and leaves nothing pending. -/
theorem HandlerEffect.session_pending_of_free {h : Handler} {now : Nat} {t s : State} (effect : HandlerEffect h now t s)
    (free : s.tx.pending = false) : t.session = s.session ∧ t.tx.pending = false := by
  cases effect with
  | goesOn same => exact ⟨same.session, same.pending.trans free⟩
  | delivered u bytes acks ack slot same report =>
    rw [report]
    exact ⟨same.session, same.pending.trans free⟩
  | ended _ _ pending => rw [free] at pending; cases pending

/-- A listening handler leaves the core before INIT. -/
theorem BeforeInit.runHandler {h : Handler} {s : State} (before : BeforeInit s) (listening : h ∈ listeningHandlers)
    (p : Sample) : BeforeInit (runHandler h p s) := by
  have frame := runHandler_frame h p s
  obtain ⟨session, free⟩ := (runHandler_effect_of_listening listening p s).session_pending_of_free before.pending
  obtain ⟨released, notTx, notStart⟩ := before.onlyListens.runHandler before.pending before.silent listening p
  exact
    { alloc := session ▸ before.alloc
      latch := frame.pinit ▸ before.latch
      pending := free
      prom := frame.cfg ▸ before.prom
      released := released
      silent := runHandler_ackMe_of_unclaimed before.unclaimed before.silent listening p
      receiving := ⟨notTx, notStart⟩ }

/-- All it reports is a broadcast frame it delivers. -/
theorem BeforeInit.runHandler_deliversBroadcast {h : Handler} {s : State} (before : BeforeInit s)
    (quiet : s.events = []) (listening : h ∈ listeningHandlers) (p : Sample) :
    ∀ e ∈ (Machine.runHandler h p s).events, DeliversBroadcast e := by
  intro e reported
  cases runHandler_effect_of_listening listening p s with
  | goesOn same =>
    rw [same.events, quiet] at reported
    cases reported
  | ended _ _ pending => rw [before.pending] at pending; cases pending
  | delivered u bytes acks ack slot same report =>
    have alone : e = .rxComplete bytes acks ack := by simpa [report, same.events, quiet] using reported
    subst alone slot
    have silent : .rxComplete bytes acks ack ∉ s.events := by simp [quiet]
    obtain ⟨heard, -⟩ := delivers_of_handleRxAckLow silent reported
    exact ⟨bytes, acks, ack, rfl,
      (header_of_handleRxAckLow silent reported).symm ▸ before.broadcast_of_wanted heard⟩

/-- Sampling leaves the core before INIT (R170). -/
theorem BeforeInit.stampFree {s : State} (before : BeforeInit s) (p : Sample) : BeforeInit (stampFree p s) := by
  constructor <;> simp [before.alloc, before.latch, before.pending, before.prom, before.released, before.silent,
    before.receiving]

/-- So does the epilogue, which writes `last_line` and `t_last` only. -/
theorem BeforeInit.epilogue {s : State} (before : BeforeInit s) (p : Sample) : BeforeInit (epilogue p s) :=
  ⟨before.alloc, before.latch, before.pending, before.prom, before.released, before.silent, before.receiving⟩

/-- Clearing the ports does too, and an answer on them. -/
theorem BeforeInit.withPorts {s : State} (before : BeforeInit s) (events : List Event) (response : Option Response) :
    BeforeInit { s with events := events, response := response } :=
  ⟨before.alloc, before.latch, before.pending, before.prom, before.released, before.silent, before.receiving⟩

/-- Before INIT no INIT is due, so a TICK is its sampling, one listening handler and its epilogue. -/
theorem BeforeInit.tickAt_eq {s : State} (before : BeforeInit s) (now : Nat) (lineIn : Bool) :
    ∃ h ∈ listeningHandlers, tickAt now lineIn s = Machine.epilogue (sampleOf now lineIn s)
      (Machine.runHandler h (sampleOf now lineIn s) (Machine.stampFree (sampleOf now lineIn s) s)) := by
  cases halted : stuck s with
  | true => exact ⟨.none, by decide, tickAt_stuck halted⟩
  | false =>
    obtain ⟨notTx, notStart⟩ := before.receiving
    have notDue : ¬ initDue s = true := fun due => nomatch before.latch.symm.trans (valid_of_initDue due)
    refine ⟨_, selectHandler_mem_listeningHandlers notTx notStart s.seq.ph, ?_⟩
    rw [tickAt_served halted, if_neg notDue, serveTick_eq]

/-- A TICK before INIT leaves the core before INIT and reports nothing but broadcasts. -/
theorem BeforeInit.tickAt {s : State} (before : BeforeInit s) (quiet : s.events = []) (now : Nat) (lineIn : Bool) :
    BeforeInit (tickAt now lineIn s) ∧ ∀ e ∈ (Machine.tickAt now lineIn s).events, DeliversBroadcast e := by
  obtain ⟨h, listening, tick⟩ := before.tickAt_eq now lineIn
  rw [tick]
  have sampled := before.stampFree (sampleOf now lineIn s)
  exact ⟨(sampled.runHandler listening _).epilogue _,
    sampled.runHandler_deliversBroadcast ((stampFree_events ..).trans quiet) listening _⟩

/-- Settles O47: RESET leads before INIT, a TICK there runs a handler that only listens, and TRANSMIT's first test
rejects it. -/
theorem silentBeforeInit : Obligations.SilentBeforeInit := by
  refine ⟨fun now0 s => ⟨_, rfl, beforeInit_resetRegs now0 (clearPorts s)⟩,
    fun s before => ⟨fun now lineIn later => ?_, fun dest payload => ?_⟩⟩
  · have cleared : BeforeInit (clearPorts s) := before.withPorts ..
    exact ⟨tickAt now lineIn (clearPorts s), execTick_admitted lineIn later, cleared.tickAt rfl now lineIn⟩
  · refine ⟨_, (transmitRespondsAndArms dest payload s).trans ?_, rfl, before.withPorts [] (some .rejectNotReady)⟩
    rw [if_pos before.unclaimed]

end Sys2Proof.Machine
end

section
/-! SUPPORT. The step at the ports (log entries 3 and 4): a transfer that decodes is run, one that does not is refused, an
empty queue only clears the output ports, and a presented table word is run first; with the byte layout of naturals the
decoder reads. -/

namespace Sys2Proof

/-- Settles O2: the induction on the base-128 digits, with the fuel `natBytes` gives, is `takeNat_natBytes`. -/
theorem naturalsReadBack : Obligations.NaturalsReadBack := takeNat_natBytes

/-- A table word spells an instruction exactly when its transfer does. -/
theorem decodeTableWord_eq_some {nbits w : Nat} {i : Instr} :
    decodeTableWord nbits w = some i ↔ decode (tableInput nbits w) = .ok i := by
  unfold decodeTableWord
  cases decode (tableInput nbits w) with
  | ok j => simp
  | error e => simp

end Sys2Proof

namespace Sys2Proof.Machine

/-- With nothing presented a step only clears the output ports (`60_exceptions.md` R394). -/
theorem step_of_input_nil {s : State} (input : s.input = []) : step s = .next (clearPorts s) := by
  rw [step, input]

/-- A transfer that spells no instruction is refused by the decoder's error. -/
theorem step_of_decode_error {s : State} {inp : Input} {rest : List Input} {e : DecodeError}
    (input : s.input = inp :: rest) (undecoded : decode inp = .error e) : step s = .refused (.undecodable e) := by
  unfold step
  rw [input]
  dsimp only
  rw [undecoded]

/-- Settles O5: the rule of a step whose transfer decodes. -/
theorem stepRunsDecoded : Obligations.StepRunsDecoded :=
  fun _ _ _ _ input decoded => step_of_decode input decoded

/-- Settles O6: the two other branches of a step. -/
theorem stepWithoutInstruction : Obligations.StepWithoutInstruction :=
  fun _ => ⟨step_of_input_nil, fun _ _ _ input undecoded => step_of_decode_error input undecoded⟩

/-- Settles O7: the word's transfer heads the queue, and taking it off gives the state back. -/
theorem tableWordRunsNext : Obligations.TableWordRunsNext := by
  intro s nbits w i word
  have presented : (s.withFetchWord nbits w).input = tableInput nbits w :: s.input := rfl
  exact step_of_decode presented (decodeTableWord_eq_some.mp word)

end Sys2Proof.Machine
end
